-- ==== Sys2Proof/Word.lean ====
section
/-! DEFINITION. The machine's word types: plain bit vectors at the widths the spec fixes (R9, R10). -/

namespace Sys2Proof

/-- A register of the host's view, 32 bits (R20, R51). -/
abbrev Word := BitVec 32

/-- A 64-bit quantity held in a LO/HI register pair: a timestamp or a binary64 pattern (R15, R56). -/
abbrev DWord := BitVec 64

/-- A frame of 112 bits. `F{i}` is the bit of significance `111 - i` (R12, R29). -/
abbrev Frame := BitVec 112

/-- A frame byte or a character code (R90, R113). -/
abbrev Byte := BitVec 8

end Sys2Proof
end

