-- ==== Sys2Proof/Syntax.lean ====
section
/-! DEFINITION. The thirteen commands of R63, one constructor for each row of spec/opcode_table.json. -/

namespace Sys2Proof

/-- A command of ADSB-CORE (R63), with the operand fields of its format at their widths (R61, R62). -/
inductive Instr where
  /-- NOP, opcode 0x00, format N (R100). -/
  | nop
  /-- EXTRACT, opcode 0x01, format X: first frame bit and field width (R82). -/
  | extract (start len : BitVec 7)
  /-- CRC_CHECK, opcode 0x02, format N (R92). -/
  | crcCheck
  /-- CRC_CORRECT, opcode 0x03, format N (R94). -/
  | crcCorrect
  /-- DECODE, opcode 0x04, format N (R101). -/
  | decode
  /-- DEC_ID, opcode 0x05, format N (R110). -/
  | decId
  /-- GRAY3, opcode 0x06, format G (R120). -/
  | gray3 (g : BitVec 3)
  /-- ALT12, opcode 0x07, format A (R121). -/
  | alt12 (alt : BitVec 12)
  /-- DEC_POS, opcode 0x08, format N (R127). -/
  | decPos
  /-- DEC_VEL, opcode 0x09, format N (R140). -/
  | decVel
  /-- POS_TO_SLOT, opcode 0x0A, format S (R160). -/
  | posToSlot (slot : BitVec 1)
  /-- CPR_NL, opcode 0x0B, format N (R161). -/
  | cprNl
  /-- CPR_RESOLVE, opcode 0x0C, format N (R163). -/
  | cprResolve
  deriving DecidableEq, Repr

end Sys2Proof
end

