-- ==== Sys2Proof/WellFormed.lean ====
section
/-! DEFINITION. Which terms of `Instr` are commands with legal operands (R62, R66, R82).
Every operand but EXTRACT's is legal at every value its width admits. -/

namespace Sys2Proof

/-- The width check of an EXTRACT: LEN is at most 64 (R82). -/
def extractLenOk (len : BitVec 7) : Bool := len.toNat ≤ 64

/-- The range check of an EXTRACT: the field ends inside the 112 frame bits (R82). -/
def extractEndOk (start len : BitVec 7) : Bool := start.toNat + len.toNat ≤ 112

/-- The operands are legal (R66). -/
def Instr.wellFormed : Instr → Bool
  | .extract start len => extractLenOk len && extractEndOk start len
  | .nop => true
  | .crcCheck => true
  | .crcCorrect => true
  | .decode => true
  | .decId => true
  | .gray3 _ => true
  | .alt12 _ => true
  | .decPos => true
  | .decVel => true
  | .posToSlot _ => true
  | .cprNl => true
  | .cprResolve => true

end Sys2Proof
end

