-- ==== Sys2Proof/Decode.lean ====
section
/-! DEFINITION. The command word: decoder, total on every 32-bit word, and encoder (R60 to R66). -/

namespace Sys2Proof

/-- Why a word is no command (R66), in the order of the checks of R64. -/
inductive DecodeError where
  /-- `w[7:0]` is above 0x0C. -/
  | illegalOpcode
  /-- a reserved bit of the opcode's format is 1. -/
  | reservedBits
  /-- an EXTRACT with LEN above 64 or a field that passes bit 111. -/
  | extractRange
  deriving DecidableEq, Repr

/-- The command formats of R61. -/
inductive Format where
  /-- no operand -/
  | N
  /-- bit field: LEN in 21:15, START in 14:8 -/
  | X
  /-- Gray group: G in 10:8 -/
  | G
  /-- altitude field: ALT in 19:8 -/
  | A
  /-- slot: SLOT in bit 8 -/
  | S
  deriving DecidableEq, Repr

/-- The reserved bits of each format (R64). -/
def reservedMask : Format → Word
  | .N => 0xFFFFFF00#32
  | .X => 0xFFC00000#32
  | .G => 0xFFFFF800#32
  | .A => 0xFFF00000#32
  | .S => 0xFFFFFE00#32

/-- `OP = w[7:0]` (R61). -/
def opField (w : Word) : BitVec 8 := w.extractLsb' 0 8
/-- `START = w[14:8]` (R61). -/
def startField (w : Word) : BitVec 7 := w.extractLsb' 8 7
/-- `LEN = w[21:15]` (R61). -/
def lenField (w : Word) : BitVec 7 := w.extractLsb' 15 7
/-- `G = w[10:8]` (R61). -/
def grayField (w : Word) : BitVec 3 := w.extractLsb' 8 3
/-- `ALT = w[19:8]` (R61). -/
def altField (w : Word) : BitVec 12 := w.extractLsb' 8 12
/-- `SLOT = w[8]` (R61). -/
def slotField (w : Word) : BitVec 1 := w.extractLsb' 8 1

/-- The command the opcode selects, with its operand fields, before the checks of reserved bits and
ranges: "A decoder selects a command from `w[7:0]` alone" (R63). -/
def selectByOpcode (w : Word) : Option Instr :=
  match (opField w).toNat with
  | 0x00 => some .nop
  | 0x01 => some (.extract (startField w) (lenField w))
  | 0x02 => some .crcCheck
  | 0x03 => some .crcCorrect
  | 0x04 => some .decode
  | 0x05 => some .decId
  | 0x06 => some (.gray3 (grayField w))
  | 0x07 => some (.alt12 (altField w))
  | 0x08 => some .decPos
  | 0x09 => some .decVel
  | 0x0A => some (.posToSlot (slotField w))
  | 0x0B => some .cprNl
  | 0x0C => some .cprResolve
  | _ => none

/-- The format of each command (R63). -/
def Instr.format : Instr → Format
  | .nop => .N
  | .extract _ _ => .X
  | .crcCheck => .N
  | .crcCorrect => .N
  | .decode => .N
  | .decId => .N
  | .gray3 _ => .G
  | .alt12 _ => .A
  | .decPos => .N
  | .decVel => .N
  | .posToSlot _ => .S
  | .cprNl => .N
  | .cprResolve => .N

/-- The command a word stands for, or the first check of R64 it fails: opcode, then reserved bits, then
the EXTRACT range. -/
def decode (w : Word) : Except DecodeError Instr :=
  match selectByOpcode w with
  | none => .error .illegalOpcode
  | some i =>
    if w &&& reservedMask i.format ≠ 0 then .error .reservedBits
    else if i.wellFormed then .ok i
    else .error .extractRange

/-- The opcode of each command (R63). -/
def Instr.opcode : Instr → BitVec 8
  | .nop => 0x00#8
  | .extract _ _ => 0x01#8
  | .crcCheck => 0x02#8
  | .crcCorrect => 0x03#8
  | .decode => 0x04#8
  | .decId => 0x05#8
  | .gray3 _ => 0x06#8
  | .alt12 _ => 0x07#8
  | .decPos => 0x08#8
  | .decVel => 0x09#8
  | .posToSlot _ => 0x0A#8
  | .cprNl => 0x0B#8
  | .cprResolve => 0x0C#8

/-- The operand bits of each command, in place (R61, R68). -/
def Instr.operandBits : Instr → Word
  | .extract start len => len.setWidth 32 <<< 15 ||| start.setWidth 32 <<< 8
  | .gray3 g => g.setWidth 32 <<< 8
  | .alt12 alt => alt.setWidth 32 <<< 8
  | .posToSlot slot => slot.setWidth 32 <<< 8
  | .nop => 0
  | .crcCheck => 0
  | .crcCorrect => 0
  | .decode => 0
  | .decId => 0
  | .decPos => 0
  | .decVel => 0
  | .cprNl => 0
  | .cprResolve => 0

/-- The word of a command (R68). -/
def encode (i : Instr) : Word := i.operandBits ||| i.opcode.setWidth 32

/-- The decoder's answer on the table's numbering of bits: a command is one 32-bit word (R60), so bit 0
is the word's bit 0. -/
def decodeTableWord (nbits w : Nat) : Option Instr :=
  if nbits ≤ 32 ∧ w < 2 ^ 32 then (decode (BitVec.ofNat 32 w)).toOption else none

end Sys2Proof
end

