-- ==== Sys2Proof/Config.lean ====
section
/-! DEFINITION. The fixed values of R9 and R10, and the one free value of the model. -/

namespace Sys2Proof.Config

/-- Frame length in bits (R9). -/
def frameBits : Nat := 112

/-- The 24 low coefficients of the CRC generator; the x^24 term is implicit (R9, R91). -/
def crcPoly : BitVec 24 := 0xFFF409#24

/-- The Downlink Format the dispatcher accepts (R9, R104). -/
def acceptedDf : Nat := 17

/-- The FLIP value that says no bit was flipped (R31). -/
def noFlip : BitVec 7 := 127#7

/-- The pairing window in milliseconds (R9, R165). -/
def pairWindow : Nat := 10000

/-- Bytes of the register space (R24, R50). -/
def spaceBytes : Nat := 0x200

/-- FREE VALUE (log 13): the bit pattern a NaN would be stored as.
R15 defines every stored binary64 value as the rounding of a real number, so no rule states a NaN's
pattern, and no command of this model stores one. -/
opaque nanBits : DWord

end Sys2Proof.Config
end

