-- ==== Sys2Proof/Machine/State.lean ====
section
/-! DEFINITION. The state of ADSB-CORE (10_state.md), the platform's inputs, and the schedule of the three
agents; the reasons a step can stop; the state right after reset (R230). All of it is plain data. -/

namespace Sys2Proof.Machine

/-- MSG_KIND.KIND (R33). -/
inductive MsgKind where
  /-- 0: no message, the source's "absent" result. -/
  | noMessage
  /-- 1 -/
  | identification
  /-- 2 -/
  | airbornePosition
  /-- 3 -/
  | velocity
  deriving DecidableEq, Repr

/-- MSG_KIND.REASON (R33); values 5 to 7 are never written. -/
inductive MsgReason where
  /-- 0 -/
  | ok
  /-- 1: length not 112 (R102) -/
  | len
  /-- 2: uncorrectable (R103) -/
  | crc
  /-- 3: Downlink Format not 17 (R104) -/
  | df
  /-- 4: unsupported Type Code (R106) -/
  | tc
  deriving DecidableEq, Repr

/-- FAULT_CODE.CODE (R26, R202); values 6 to 15 are never written. -/
inductive FaultCode where
  /-- 0: no fault since reset -/
  | noFault
  /-- 1 -/
  | illegalOpcode
  /-- 2 -/
  | reservedBits
  /-- 3 -/
  | extractRange
  /-- 4 -/
  | overrun
  /-- 5 -/
  | slotSource
  deriving DecidableEq, Repr

/-- CPR_STATUS.REASON (R44); values 5 to 7 are never written. -/
inductive CprReason where
  /-- 0 -/
  | ok
  /-- 1: equal parity (R164) -/
  | parity
  /-- 2: timestamps more than 10,000 ms apart (R165) -/
  | stale
  /-- 3: zone count not positive (R168) -/
  | nl
  /-- 4: reference longitude not finite (R170) -/
  | ref
  deriving DecidableEq, Repr

/-- POS_ALTINFO.PATH (R39, R124). -/
inductive AltPath where
  /-- 0: 25 ft encoding -/
  | ft25
  /-- 1: Gillham, decoded -/
  | gillham
  /-- 2: Gillham, both groups zero -/
  | gillhamZero
  /-- 3: Gillham, invalid 100 ft code -/
  | gillhamInvalid
  deriving DecidableEq, Repr

/-- The fields of POS_ALTINFO (R39). -/
structure AltInfo where
  path : AltPath
  q : BitVec 1
  n25 : BitVec 11
  n500 : BitVec 8
  n100 : BitVec 3
  deriving DecidableEq, Repr

/-- CRC_INFO (R31). -/
structure CrcInfo where
  pass : Bool
  flip : BitVec 7
  syndrome : BitVec 24
  deriving DecidableEq, Repr

/-- ID_CAT, ID_NAMELEN and the eight character codes of ID_NAME0 (low half) and ID_NAME1 (high half)
(R36, R37). -/
structure IdRecord where
  cat : BitVec 5
  ca : BitVec 3
  set : BitVec 2
  nameLen : BitVec 4
  name : DWord
  deriving DecidableEq, Repr

/-- POS_FLAGS, POS_ALTRAW, POS_ALT, POS_ALTINFO, POS_LATCPR and POS_LONCPR (R38, R39). -/
structure PosRecord where
  ss : BitVec 2
  nicsb : BitVec 1
  t : BitVec 1
  f : BitVec 1
  altRaw : BitVec 12
  alt : Word
  altInfo : AltInfo
  latCpr : BitVec 17
  lonCpr : BitVec 17
  deriving DecidableEq, Repr

/-- VEL_SUB, VEL_EW, VEL_NS, VEL_VR, VEL_SPEED and VEL_HDG (R40, R41). -/
structure VelRecord where
  sub : BitVec 3
  ew : Word
  ns : Word
  vr : Word
  speed : DWord
  hdg : DWord
  deriving DecidableEq, Repr

/-- The MSG record: header and the registers of the three variants (R33 to R41). -/
structure MsgRecord where
  kind : MsgKind
  reason : MsgReason
  icao : BitVec 24
  tc : BitVec 5
  df : BitVec 5
  ts : DWord
  id : IdRecord
  pos : PosRecord
  vel : VelRecord
  deriving DecidableEq, Repr

/-- A CPR slot (R42). -/
structure Slot where
  f : BitVec 1
  lat : BitVec 17
  lon : BitVec 17
  ts : DWord
  deriving DecidableEq, Repr

/-- The CPR result registers (R44, R45). -/
structure CprResult where
  valid : Bool
  reason : CprReason
  used : BitVec 1
  nl : Word
  j : Word
  m : Word
  lat : DWord
  lon : DWord
  deriving DecidableEq, Repr

/-- The registers latched at acceptance (R47). Every register any command reads is latched, whichever
command it is (log 10). -/
structure Snapshot where
  frameLen : BitVec 8
  frame : Frame
  slot0 : Slot
  slot1 : Slot
  refLon : DWord
  nlLat : DWord
  msg : MsgRecord
  deriving DecidableEq, Repr

/-- PEND: the accepted word, its snapshot, and the sample of NOW once the block has taken it (R47, R48). -/
structure Pending where
  word : Word
  snap : Snapshot
  sampled : Option DWord
  deriving DecidableEq, Repr

/-- CST (R46). PEND is "present while CST = BUSY" (R47), so it stands inside BUSY. -/
inductive Cst where
  | idle
  | busy (pend : Pending)
  | faulted
  deriving DecidableEq, Repr

/-- One move of one of the three agents (R215). The schedule is a list of these, first move first (log 1). -/
inductive Event where
  /-- the host reads `size` bytes at bus address `addr` (R51) -/
  | read (addr size : Nat)
  /-- the host writes `size` bytes at bus address `addr`; `value` is the data of a 32-bit write (R51) -/
  | write (addr size : Nat) (value : Word)
  /-- the block completes the pending command here (R65, R232) -/
  | complete
  /-- the block samples NOW here, once a command (R48, R218) -/
  | sample
  /-- the platform drives NOW to `ms` (R218) -/
  | driveNow (ms : DWord)
  /-- the platform asserts the reset input (R230) -/
  | assertReset
  /-- the platform releases the reset input (R230) -/
  | releaseReset
  deriving DecidableEq, Repr

/-- What the host's last access gave back (R51, R236). -/
inductive Response where
  /-- nothing: no access yet, or a write -/
  | nothing
  /-- the 32-bit value of a read -/
  | data (value : Word)
  deriving DecidableEq, Repr

/-- The registers of the map R24, by name. -/
inductive Reg where
  | cmd | status | faultCode | faultCmd | frameLen
  | frame0 | frame1 | frame2 | frame3
  | cframe0 | cframe1 | cframe2 | cframe3
  | crcInfo | res0 | res1
  | msgKind | msgIcao | msgTcdf | msgTsLo | msgTsHi
  | idCat | idNameLen | idName0 | idName1
  | posFlags | posAltRaw | posAlt | posAltInfo | posLatCpr | posLonCpr
  | velSub | velEw | velNs | velVr | velSpeedLo | velSpeedHi | velHdgLo | velHdgHi
  | slot0F | slot0Lat | slot0Lon | slot0TsLo | slot0TsHi
  | slot1F | slot1Lat | slot1Lon | slot1TsLo | slot1TsHi
  | refLatLo | refLatHi | refLonLo | refLonHi | nlLatLo | nlLatHi
  | cprStatus | cprNl | cprJ | cprM | cprLatLo | cprLatHi | cprLonLo | cprLonHi
  deriving DecidableEq, Repr

/-- The state: the block's registers and hidden state (10_state.md), the platform's inputs, and the
schedule. -/
structure State where
  /-- CST and PEND (R46, R47); STATUS.BUSY and STATUS.FAULT are views of it. -/
  cst : Cst
  /-- STATUS.DONE (R25). -/
  done : Bool
  /-- STATUS.LASTOP (R25). -/
  lastop : BitVec 8
  /-- FAULT_CODE (R26). -/
  faultCode : FaultCode
  /-- FAULT_CMD (R27). -/
  faultCmd : Word
  /-- FRAME_LEN.LEN (R28). -/
  frameLen : BitVec 8
  /-- FRAME0 to FRAME3 (R29). -/
  frame : Frame
  /-- CFRAME0 to CFRAME3 (R30). -/
  cframe : Frame
  /-- CRC_INFO (R31). -/
  crcInfo : CrcInfo
  /-- RES0 (R32). -/
  res0 : Word
  /-- RES1 (R32). -/
  res1 : Word
  /-- the MSG record (R33 to R41). -/
  msg : MsgRecord
  /-- SLOT0_* (R42). -/
  slot0 : Slot
  /-- SLOT1_* (R42). -/
  slot1 : Slot
  /-- REF_LAT (R43): stored and read by no command (R170). -/
  refLat : DWord
  /-- REF_LON (R43). -/
  refLon : DWord
  /-- NL_LAT (R43). -/
  nlLat : DWord
  /-- the CPR result (R44, R45). -/
  cpr : CprResult
  /-- the value on the NOW port (R48); not block state (log 3). -/
  now : DWord
  /-- the reset input is asserted (R230). -/
  resetAsserted : Bool
  /-- BASE as its page number: BASE is 0x200-aligned (R11), an open parameter no step changes (log 4). -/
  basePage : Nat
  /-- the moves still to come, first move first (log 1). -/
  events : List Event
  /-- what the host's last access gave back (log 9). -/
  response : Response
  deriving DecidableEq, Repr

/-- Why the machine stops with a fault. A fault of the BLOCK is no member: its entry is a next state (R205). -/
inductive Fault where
  /-- Raised by a host access that is not a 32-bit access at a 4-aligned offset of the register space: "A
  model treats such an access as a fault of the host's step" (R52, R204). Safe: the block's state does not
  change and the run stops there (log 6). -/
  | busError
  deriving DecidableEq, Repr

/-- Why a step has no meaning. -/
inductive Refusal where
  /-- Raised by an arm of exec whose instruction has no meaning yet; no arm is left so. Safe. -/
  | notModelled (mnemonic : String)
  /-- Raised by an instruction's completion in a state with no pending command: the completion is "enabled
  while CST = BUSY" (R215). `step` never asks for it. Safe (log 11). -/
  | noPendingCommand
  /-- Raised by `step` when the pending word is no command, which acceptance excludes (R64). Safe (log 11). -/
  | pendingWordIllegal
  /-- Raised by a host access while reset is asserted: "a model excludes such accesses" (93 S7, R230). Safe
  (log 7). -/
  | accessDuringReset
  deriving DecidableEq, Repr

/-- All altitude information fields 0 (R124, R230). -/
def AltInfo.zero : AltInfo := ⟨.ft25, 0, 0, 0, 0⟩
/-- ID_* all 0 (R230). -/
def IdRecord.zero : IdRecord := ⟨0, 0, 0, 0, 0⟩
/-- POS_* all 0 (R230). -/
def PosRecord.zero : PosRecord := ⟨0, 0, 0, 0, 0, 0, AltInfo.zero, 0, 0⟩
/-- VEL_* all 0 (R230). -/
def VelRecord.zero : VelRecord := ⟨0, 0, 0, 0, 0, 0⟩
/-- The MSG record all 0 (R230). -/
def MsgRecord.zero : MsgRecord :=
  ⟨.noMessage, .ok, 0, 0, 0, 0, IdRecord.zero, PosRecord.zero, VelRecord.zero⟩
/-- A slot all 0 (R230). -/
def Slot.zero : Slot := ⟨0, 0, 0, 0⟩
/-- The CPR result all 0 (R230). -/
def CprResult.zero : CprResult := ⟨false, .ok, 0, 0, 0, 0, 0, 0⟩

/-- The machine right after reset (R230). NOW, BASE, the schedule and the response are no block state: their
values here are the model's (logs 3, 4, 5, 9). -/
def State.reset : State where
  cst := .idle
  done := false
  lastop := 0x00#8
  faultCode := .noFault
  faultCmd := 0
  frameLen := 0
  frame := 0
  cframe := 0
  crcInfo := ⟨false, Config.noFlip, 0⟩
  res0 := 0
  res1 := 0
  msg := MsgRecord.zero
  slot0 := Slot.zero
  slot1 := Slot.zero
  refLat := 0
  refLon := 0
  nlLat := 0
  cpr := CprResult.zero
  now := 0
  resetAsserted := false
  basePage := 0
  events := []
  response := .nothing

/-- The outcome of one step of this machine. -/
abbrev Result := Host.Outcome State Fault Refusal

end Sys2Proof.Machine
end

