-- ==== Sys2Proof/Machine/Operands.lean ====
section
/-! DEFINITION. The operand forms: bits, fields and bytes of a frame, its payload, and the halves of 64-bit
register pairs (R12, R29, R56, R80, R90, R105). -/

namespace Sys2Proof.Machine

/-- `F{i}`: bit `i` of a frame, bit 0 first and most significant (R12, R29). -/
def frameBit (F : Frame) (i : Nat) : Bool := F.getMsbD i

/-- `fld(F, a, n)`: the unsigned integer of the `n` bits from `F{a}` on, the first the most significant
(R12, R80). -/
def fld (F : Frame) (a : Nat) : Nat → Nat
  | 0 => 0
  | n + 1 => 2 * fld F a n + (frameBit F (a + n)).toNat

/-- `fld(P, p, n)`: a payload offset `p` is frame bit `32 + p` (R12). -/
def payload (F : Frame) (p n : Nat) : Nat := fld F (32 + p) n

/-- `P{p}` as one bit (R12, R105). -/
def payloadBit (F : Frame) (p : Nat) : BitVec 1 := BitVec.ofBool (frameBit F (32 + p))

/-- The Type Code, frame bits [32,37) (R105; 90_conflicts.md C1). -/
def typeCode (F : Frame) : Nat := fld F 32 5

/-- The Downlink Format, frame bits [0,5) (R105). -/
def downlinkFormat (F : Frame) : Nat := fld F 0 5

/-- Frame byte `B[m] = fld(F, 8m, 8)` (R55, R90). -/
def frameByte (F : Frame) (m : Nat) : Byte := BitVec.ofNat 8 (fld F (8 * m) 8)

/-- The frame with bit `F{i}` inverted (R93). -/
def flipBit (F : Frame) (i : Nat) : Frame := F ^^^ (1#112 <<< (111 - i))

/-- FRAME0 of a frame: `F{0}`..`F{31}` in bits 31..0 (R29). -/
def frameWord0 (F : Frame) : Word := F.extractLsb' 80 32
/-- FRAME1 of a frame (R29). -/
def frameWord1 (F : Frame) : Word := F.extractLsb' 48 32
/-- FRAME2 of a frame (R29). -/
def frameWord2 (F : Frame) : Word := F.extractLsb' 16 32
/-- FRAME3 of a frame: `F{96}`..`F{111}` in bits 31..16, bits 15..0 read 0 (R29). -/
def frameWord3 (F : Frame) : Word := F.extractLsb' 0 16 ++ 0#16

/-- The frame with FRAME0 written (R29). -/
def withFrameWord0 (F : Frame) (v : Word) : Frame := v ++ F.extractLsb' 0 80
/-- The frame with FRAME1 written (R29). -/
def withFrameWord1 (F : Frame) (v : Word) : Frame := F.extractLsb' 80 32 ++ v ++ F.extractLsb' 0 48
/-- The frame with FRAME2 written (R29). -/
def withFrameWord2 (F : Frame) (v : Word) : Frame := F.extractLsb' 48 64 ++ v ++ F.extractLsb' 0 16
/-- The frame with FRAME3 written: bits 15..0 of the value are ignored (R29). -/
def withFrameWord3 (F : Frame) (v : Word) : Frame := F.extractLsb' 16 96 ++ v.extractLsb' 16 16

/-- The LO register of a 64-bit pair (R15, R56). -/
def loHalf (d : DWord) : Word := d.extractLsb' 0 32
/-- The HI register of a 64-bit pair (R15, R56). -/
def hiHalf (d : DWord) : Word := d.extractLsb' 32 32
/-- The pair with its LO register written (R56). -/
def withLo (d : DWord) (v : Word) : DWord := hiHalf d ++ v
/-- The pair with its HI register written (R56). -/
def withHi (d : DWord) (v : Word) : DWord := v ++ loHalf d

/-- The snapshot acceptance takes of the registers the commands read (R47). -/
def takeSnapshot (s : State) : Snapshot where
  frameLen := s.frameLen
  frame := s.frame
  slot0 := s.slot0
  slot1 := s.slot1
  refLon := s.refLon
  nlLat := s.nlLat
  msg := s.msg

/-- BASE, the bus address of offset 0x000: 0x200-aligned (R11). -/
def baseAddress (s : State) : Nat := s.basePage * Config.spaceBytes

end Sys2Proof.Machine
end

