-- ==== Sys2Proof/Machine/Flags.lean ====
section
/-! DEFINITION. The status and flag words: how the named fields of a register are packed into its 32 bits
(R25, R26, R31, R33, R34, R36 to R40, R44). Each word is written as the spec lists it, bit 31 first. -/

namespace Sys2Proof.Machine

/-- STATUS.BUSY = (CST = BUSY) (R46). -/
def busyFlag (s : State) : Bool :=
  match s.cst with
  | .busy _ => true
  | .idle => false
  | .faulted => false

/-- STATUS.FAULT = (CST = FAULTED) (R46). -/
def faultFlag (s : State) : Bool :=
  match s.cst with
  | .faulted => true
  | .idle => false
  | .busy _ => false

/-- STATUS: LASTOP in 15:8, FAULT, DONE, BUSY in 2, 1, 0 (R25). -/
def statusWord (s : State) : Word :=
  0#16 ++ s.lastop ++ 0#5 ++ BitVec.ofBool (faultFlag s) ++ BitVec.ofBool s.done
    ++ BitVec.ofBool (busyFlag s)

/-- The fault codes of R26 and R202. -/
def faultCodeBits : FaultCode → BitVec 4
  | .noFault => 0
  | .illegalOpcode => 1
  | .reservedBits => 2
  | .extractRange => 3
  | .overrun => 4
  | .slotSource => 5

/-- FAULT_CODE: CODE in 3:0 (R26). -/
def faultCodeWord (c : FaultCode) : Word := 0#28 ++ faultCodeBits c

/-- FRAME_LEN: LEN in 7:0 (R28). -/
def frameLenWord (len : BitVec 8) : Word := 0#24 ++ len

/-- CRC_INFO: PASS in 31, FLIP in 30:24, SYNDROME in 23:0 (R31). -/
def crcInfoWord (c : CrcInfo) : Word := BitVec.ofBool c.pass ++ c.flip ++ c.syndrome

/-- The KIND values of R33. -/
def msgKindBits : MsgKind → BitVec 2
  | .noMessage => 0
  | .identification => 1
  | .airbornePosition => 2
  | .velocity => 3

/-- The REASON values of R33. -/
def msgReasonBits : MsgReason → BitVec 3
  | .ok => 0
  | .len => 1
  | .crc => 2
  | .df => 3
  | .tc => 4

/-- MSG_KIND: REASON in 6:4, KIND in 1:0 (R33). -/
def msgKindWord (m : MsgRecord) : Word := 0#25 ++ msgReasonBits m.reason ++ 0#2 ++ msgKindBits m.kind

/-- MSG_ICAO: ICAO in 23:0 (R34). -/
def msgIcaoWord (m : MsgRecord) : Word := 0#8 ++ m.icao

/-- MSG_TCDF: DF in 12:8, TC in 4:0 (R34). -/
def msgTcdfWord (m : MsgRecord) : Word := 0#19 ++ m.df ++ 0#3 ++ m.tc

/-- ID_CAT: SET in 13:12, CA in 10:8, CAT in 4:0 (R36). -/
def idCatWord (r : IdRecord) : Word := 0#18 ++ r.set ++ 0#1 ++ r.ca ++ 0#3 ++ r.cat

/-- ID_NAMELEN: LEN in 3:0 (R37). -/
def idNameLenWord (r : IdRecord) : Word := 0#28 ++ r.nameLen

/-- POS_FLAGS: F in 12, T in 8, NICSB in 4, SS in 1:0 (R38). -/
def posFlagsWord (r : PosRecord) : Word := 0#19 ++ r.f ++ 0#3 ++ r.t ++ 0#3 ++ r.nicsb ++ 0#2 ++ r.ss

/-- POS_ALTRAW: the raw field in 11:0 (R38). -/
def posAltRawWord (r : PosRecord) : Word := 0#20 ++ r.altRaw

/-- The PATH values of R39. -/
def altPathBits : AltPath → BitVec 2
  | .ft25 => 0
  | .gillham => 1
  | .gillhamZero => 2
  | .gillhamInvalid => 3

/-- POS_ALTINFO, also RES1 of ALT12: N25 in 30:20, N100 in 18:16, N500 in 15:8, Q in 2, PATH in 1:0
(R39, R124). -/
def altInfoWord (i : AltInfo) : Word :=
  0#1 ++ i.n25 ++ 0#1 ++ i.n100 ++ i.n500 ++ 0#5 ++ i.q ++ altPathBits i.path

/-- A 17-bit CPR coordinate in 16:0 (R38, R42). -/
def cprRawWord (v : BitVec 17) : Word := 0#15 ++ v

/-- VEL_SUB: SUBTYPE in 2:0 (R40). -/
def velSubWord (r : VelRecord) : Word := 0#29 ++ r.sub

/-- SLOTs_F: the parity in bit 0 (R42). -/
def slotFWord (t : Slot) : Word := 0#31 ++ t.f

/-- The REASON values of R44. -/
def cprReasonBits : CprReason → BitVec 3
  | .ok => 0
  | .parity => 1
  | .stale => 2
  | .nl => 3
  | .ref => 4

/-- CPR_STATUS: USED in 8, REASON in 6:4, VALID in 0 (R44). -/
def cprStatusWord (c : CprResult) : Word :=
  0#23 ++ c.used ++ 0#1 ++ cprReasonBits c.reason ++ 0#3 ++ BitVec.ofBool c.valid

end Sys2Proof.Machine
end

