-- ==== Sys2Proof/Machine/Regs.lean ====
section
/-! DEFINITION. The register map R24: offsets, what a read returns, what a write stores. -/

namespace Sys2Proof.Machine

/-- Offsets 0x000 to 0x048 of the map R24: command, status, frames and general results. -/
def shellRegs : List Reg :=
  [.cmd, .status, .faultCode, .faultCmd, .frameLen, .frame0, .frame1, .frame2, .frame3,
   .cframe0, .cframe1, .cframe2, .cframe3, .crcInfo, .res0, .res1]

/-- Offsets 0x050 to 0x094: the message header, identification and position. -/
def headerRegs : List Reg :=
  [.msgKind, .msgIcao, .msgTcdf, .msgTsLo, .msgTsHi, .idCat, .idNameLen, .idName0, .idName1,
   .posFlags, .posAltRaw, .posAlt, .posAltInfo, .posLatCpr, .posLonCpr]

/-- Offsets 0x0A0 to 0x0BC: velocity. -/
def velocityRegs : List Reg :=
  [.velSub, .velEw, .velNs, .velVr, .velSpeedLo, .velSpeedHi, .velHdgLo, .velHdgHi]

/-- Offsets 0x0C0 to 0x114: the slots, the reference and NL_LAT. -/
def pairRegs : List Reg :=
  [.slot0F, .slot0Lat, .slot0Lon, .slot0TsLo, .slot0TsHi,
   .slot1F, .slot1Lat, .slot1Lon, .slot1TsLo, .slot1TsHi,
   .refLatLo, .refLatHi, .refLonLo, .refLonHi, .nlLatLo, .nlLatHi]

/-- Offsets 0x120 to 0x13C: the CPR result. -/
def cprResultRegs : List Reg :=
  [.cprStatus, .cprNl, .cprJ, .cprM, .cprLatLo, .cprLatHi, .cprLonLo, .cprLonHi]

/-- The registers in the order of the map R24. -/
def allRegs : List Reg := shellRegs ++ headerRegs ++ velocityRegs ++ pairRegs ++ cprResultRegs

/-- The offset column of R24. -/
def regOffset : Reg → Nat
  | .cmd => 0x000 | .status => 0x004 | .faultCode => 0x008 | .faultCmd => 0x00C
  | .frameLen => 0x010
  | .frame0 => 0x020 | .frame1 => 0x024 | .frame2 => 0x028 | .frame3 => 0x02C
  | .cframe0 => 0x030 | .cframe1 => 0x034 | .cframe2 => 0x038 | .cframe3 => 0x03C
  | .crcInfo => 0x040 | .res0 => 0x044 | .res1 => 0x048
  | .msgKind => 0x050 | .msgIcao => 0x054 | .msgTcdf => 0x058
  | .msgTsLo => 0x060 | .msgTsHi => 0x064
  | .idCat => 0x070 | .idNameLen => 0x074 | .idName0 => 0x078 | .idName1 => 0x07C
  | .posFlags => 0x080 | .posAltRaw => 0x084 | .posAlt => 0x088 | .posAltInfo => 0x08C
  | .posLatCpr => 0x090 | .posLonCpr => 0x094
  | .velSub => 0x0A0 | .velEw => 0x0A4 | .velNs => 0x0A8 | .velVr => 0x0AC
  | .velSpeedLo => 0x0B0 | .velSpeedHi => 0x0B4 | .velHdgLo => 0x0B8 | .velHdgHi => 0x0BC
  | .slot0F => 0x0C0 | .slot0Lat => 0x0C4 | .slot0Lon => 0x0C8
  | .slot0TsLo => 0x0D0 | .slot0TsHi => 0x0D4
  | .slot1F => 0x0E0 | .slot1Lat => 0x0E4 | .slot1Lon => 0x0E8
  | .slot1TsLo => 0x0F0 | .slot1TsHi => 0x0F4
  | .refLatLo => 0x100 | .refLatHi => 0x104 | .refLonLo => 0x108 | .refLonHi => 0x10C
  | .nlLatLo => 0x110 | .nlLatHi => 0x114
  | .cprStatus => 0x120 | .cprNl => 0x124 | .cprJ => 0x128 | .cprM => 0x12C
  | .cprLatLo => 0x130 | .cprLatHi => 0x134 | .cprLonLo => 0x138 | .cprLonHi => 0x13C

/-- The register at an offset; none at a reserved offset (R24). -/
def regAt (off : Nat) : Option Reg := allRegs.find? fun r => regOffset r == off

/-- What a read of a register returns (R25 to R45, R51); CMD reads 0 (R54). -/
def readReg (s : State) : Reg → Word
  | .cmd => 0
  | .status => statusWord s
  | .faultCode => faultCodeWord s.faultCode
  | .faultCmd => s.faultCmd
  | .frameLen => frameLenWord s.frameLen
  | .frame0 => frameWord0 s.frame
  | .frame1 => frameWord1 s.frame
  | .frame2 => frameWord2 s.frame
  | .frame3 => frameWord3 s.frame
  | .cframe0 => frameWord0 s.cframe
  | .cframe1 => frameWord1 s.cframe
  | .cframe2 => frameWord2 s.cframe
  | .cframe3 => frameWord3 s.cframe
  | .crcInfo => crcInfoWord s.crcInfo
  | .res0 => s.res0
  | .res1 => s.res1
  | .msgKind => msgKindWord s.msg
  | .msgIcao => msgIcaoWord s.msg
  | .msgTcdf => msgTcdfWord s.msg
  | .msgTsLo => loHalf s.msg.ts
  | .msgTsHi => hiHalf s.msg.ts
  | .idCat => idCatWord s.msg.id
  | .idNameLen => idNameLenWord s.msg.id
  | .idName0 => loHalf s.msg.id.name
  | .idName1 => hiHalf s.msg.id.name
  | .posFlags => posFlagsWord s.msg.pos
  | .posAltRaw => posAltRawWord s.msg.pos
  | .posAlt => s.msg.pos.alt
  | .posAltInfo => altInfoWord s.msg.pos.altInfo
  | .posLatCpr => cprRawWord s.msg.pos.latCpr
  | .posLonCpr => cprRawWord s.msg.pos.lonCpr
  | .velSub => velSubWord s.msg.vel
  | .velEw => s.msg.vel.ew
  | .velNs => s.msg.vel.ns
  | .velVr => s.msg.vel.vr
  | .velSpeedLo => loHalf s.msg.vel.speed
  | .velSpeedHi => hiHalf s.msg.vel.speed
  | .velHdgLo => loHalf s.msg.vel.hdg
  | .velHdgHi => hiHalf s.msg.vel.hdg
  | .slot0F => slotFWord s.slot0
  | .slot0Lat => cprRawWord s.slot0.lat
  | .slot0Lon => cprRawWord s.slot0.lon
  | .slot0TsLo => loHalf s.slot0.ts
  | .slot0TsHi => hiHalf s.slot0.ts
  | .slot1F => slotFWord s.slot1
  | .slot1Lat => cprRawWord s.slot1.lat
  | .slot1Lon => cprRawWord s.slot1.lon
  | .slot1TsLo => loHalf s.slot1.ts
  | .slot1TsHi => hiHalf s.slot1.ts
  | .refLatLo => loHalf s.refLat
  | .refLatHi => hiHalf s.refLat
  | .refLonLo => loHalf s.refLon
  | .refLonHi => hiHalf s.refLon
  | .nlLatLo => loHalf s.nlLat
  | .nlLatHi => hiHalf s.nlLat
  | .cprStatus => cprStatusWord s.cpr
  | .cprNl => s.cpr.nl
  | .cprJ => s.cpr.j
  | .cprM => s.cpr.m
  | .cprLatLo => loHalf s.cpr.lat
  | .cprLatHi => hiHalf s.cpr.lat
  | .cprLonLo => loHalf s.cpr.lon
  | .cprLonHi => hiHalf s.cpr.lon

/-- A read of an offset: a reserved offset reads 0 (R53). -/
def readOffset (s : State) (off : Nat) : Word :=
  match regAt off with
  | some r => readReg s r
  | none => 0

/-- A host write to one register of a slot stores its writable bits (R42). -/
def writeSlotF (t : Slot) (v : Word) : Slot := { t with f := v.extractLsb' 0 1 }
/-- SLOTs_LAT: bits 16:0 are writable (R42). -/
def writeSlotLat (t : Slot) (v : Word) : Slot := { t with lat := v.extractLsb' 0 17 }
/-- SLOTs_LON: bits 16:0 are writable (R42). -/
def writeSlotLon (t : Slot) (v : Word) : Slot := { t with lon := v.extractLsb' 0 17 }
/-- SLOTs_TS_LO (R42). -/
def writeSlotTsLo (t : Slot) (v : Word) : Slot := { t with ts := withLo t.ts v }
/-- SLOTs_TS_HI (R42). -/
def writeSlotTsHi (t : Slot) (v : Word) : Slot := { t with ts := withHi t.ts v }

/-- A host write to a register other than CMD: an input register stores its writable bits (R23, R28, R29,
R42, R43), a read-only register ignores the write (R54). The write of CMD is `hostCommand` (R64). -/
def writeInput (s : State) (v : Word) : Reg → State
  | .frameLen => { s with frameLen := v.extractLsb' 0 8 }
  | .frame0 => { s with frame := withFrameWord0 s.frame v }
  | .frame1 => { s with frame := withFrameWord1 s.frame v }
  | .frame2 => { s with frame := withFrameWord2 s.frame v }
  | .frame3 => { s with frame := withFrameWord3 s.frame v }
  | .slot0F => { s with slot0 := writeSlotF s.slot0 v }
  | .slot0Lat => { s with slot0 := writeSlotLat s.slot0 v }
  | .slot0Lon => { s with slot0 := writeSlotLon s.slot0 v }
  | .slot0TsLo => { s with slot0 := writeSlotTsLo s.slot0 v }
  | .slot0TsHi => { s with slot0 := writeSlotTsHi s.slot0 v }
  | .slot1F => { s with slot1 := writeSlotF s.slot1 v }
  | .slot1Lat => { s with slot1 := writeSlotLat s.slot1 v }
  | .slot1Lon => { s with slot1 := writeSlotLon s.slot1 v }
  | .slot1TsLo => { s with slot1 := writeSlotTsLo s.slot1 v }
  | .slot1TsHi => { s with slot1 := writeSlotTsHi s.slot1 v }
  | .refLatLo => { s with refLat := withLo s.refLat v }
  | .refLatHi => { s with refLat := withHi s.refLat v }
  | .refLonLo => { s with refLon := withLo s.refLon v }
  | .refLonHi => { s with refLon := withHi s.refLon v }
  | .nlLatLo => { s with nlLat := withLo s.nlLat v }
  | .nlLatHi => { s with nlLat := withHi s.nlLat v }
  | .cmd | .status | .faultCode | .faultCmd
  | .cframe0 | .cframe1 | .cframe2 | .cframe3 | .crcInfo | .res0 | .res1
  | .msgKind | .msgIcao | .msgTcdf | .msgTsLo | .msgTsHi
  | .idCat | .idNameLen | .idName0 | .idName1
  | .posFlags | .posAltRaw | .posAlt | .posAltInfo | .posLatCpr | .posLonCpr
  | .velSub | .velEw | .velNs | .velVr | .velSpeedLo | .velSpeedHi | .velHdgLo | .velHdgHi
  | .cprStatus | .cprNl | .cprJ | .cprM | .cprLatLo | .cprLatHi | .cprLonLo | .cprLonHi => s

end Sys2Proof.Machine
end

