-- ==== Sys2Proof/Machine/Ops.lean ====
section
/-! DEFINITION. The operations every command shares: fault entry (R205) and its only exit, reset (R207, R209,
R230); acceptance of a command word (R64); the sample of NOW (R48, R218); completion (R65). -/

namespace Sys2Proof.Machine

/-- `raise Fault(code)` for the CMD word `w` (R205): FAULT_CODE and FAULT_CMD record it, DONE is cleared, a
running command is discarded with the BUSY state that held it, and CST becomes FAULTED. -/
def raiseFault (code : FaultCode) (w : Word) (s : State) : State :=
  { s with faultCode := code, faultCmd := w, done := false, cst := .faulted }

/-- The block's reset (R230, R209), the only way out of FAULTED (R207): every register at its reset value, a
pending command discarded. NOW, BASE, the schedule, the reset input and what the host last read are not block
state and stay (logs 3, 4, 7, 9). -/
def resetBlock (s : State) : State :=
  { State.reset with
    now := s.now
    resetAsserted := s.resetAsserted
    basePage := s.basePage
    events := s.events
    response := s.response }

/-- The fault code of each decoding failure (R64). -/
def decodeFault : DecodeError → FaultCode
  | .illegalOpcode => .illegalOpcode
  | .reservedBits => .reservedBits
  | .extractRange => .extractRange

/-- The last check of R64: POS_TO_SLOT needs an airborne-position message (SLOT_SOURCE). -/
def sourceFault (i : Instr) (kind : MsgKind) : Option FaultCode :=
  match i with
  | .posToSlot _ => if kind = .airbornePosition then none else some .slotSource
  | .nop => none
  | .extract _ _ => none
  | .crcCheck => none
  | .crcCorrect => none
  | .decode => none
  | .decId => none
  | .gray3 _ => none
  | .alt12 _ => none
  | .decPos => none
  | .decVel => none
  | .cprNl => none
  | .cprResolve => none

/-- The acceptance of a word (R64): PEND takes the word and the snapshot, LASTOP its opcode, DONE is cleared
and CST becomes BUSY. -/
def acceptWord (w : Word) (s : State) : State :=
  { s with cst := .busy ⟨w, takeSnapshot s, none⟩, lastop := opField w, done := false }

/-- A host write of `w` to CMD (R64, R203): dropped while FAULTED, OVERRUN while BUSY, then the checks of
opcode, reserved bits, EXTRACT range and slot source, then acceptance. -/
def hostCommand (w : Word) (s : State) : State :=
  match s.cst with
  | .faulted => s
  | .busy _ => raiseFault .overrun w s
  | .idle =>
    match decode w with
    | .error e => raiseFault (decodeFault e) w s
    | .ok i =>
      match sourceFault i s.msg.kind with
      | some code => raiseFault code w s
      | none => acceptWord w s

/-- A host write of `v` to register `r` (R23, R58, R64). -/
def writeReg (s : State) (r : Reg) (v : Word) : State :=
  if r = .cmd then hostCommand v s else writeInput s v r

/-- A host write to an offset: a reserved offset ignores it (R53). -/
def writeOffset (s : State) (off : Nat) (v : Word) : State :=
  match regAt off with
  | some r => writeReg s r v
  | none => s

/-- The offset a host access reaches: only 32-bit accesses at 4-aligned offsets of the 0x200-byte register
space are answered (R51, R52, R204). -/
def busOffset (s : State) (addr size : Nat) : Option Nat :=
  let base := baseAddress s
  if size = 4 ∧ base ≤ addr ∧ addr < base + Config.spaceBytes ∧ (addr - base) % 4 = 0 then
    some (addr - base)
  else none

/-- A host read (R51, R52): the register's value is given back; no read has a side effect (R58). -/
def hostRead (addr size : Nat) (s : State) : Result :=
  if s.resetAsserted then .refused .accessDuringReset
  else
    match busOffset s addr size with
    | some off => .next { s with response := .data (readOffset s off) }
    | none => .fault .busError

/-- A host write (R51, R52); it gives nothing back (R236). -/
def hostWrite (addr size : Nat) (v : Word) (s : State) : Result :=
  if s.resetAsserted then .refused .accessDuringReset
  else
    match busOffset s addr size with
    | some off => .next { writeOffset s off v with response := .nothing }
    | none => .fault .busError

/-- The block samples NOW for the pending command: once, the first time the schedule says so (R48, R218). -/
def sampleNow (s : State) : State :=
  match s.cst with
  | .busy p =>
    match p.sampled with
    | none => { s with cst := .busy { p with sampled := some s.now } }
    | some _ => s
  | .idle => s
  | .faulted => s

/-- The sample a message-constructing command stamps: the one taken while it ran, or NOW at its completion
(R108, R218). -/
def timestamp (p : Pending) (s : State) : DWord :=
  match p.sampled with
  | some t => t
  | none => s.now

/-- The end of every command (R65, R233): DONE is set and CST becomes IDLE, together with the results. -/
def finish (s : State) : State := { s with done := true, cst := .idle }

/-- The fault a command raises by its own operands, checked at acceptance (R64): no pending command has one. -/
def operandFault (i : Instr) (p : Pending) : Option FaultCode :=
  if i.wellFormed then sourceFault i p.snap.msg.kind else some .extractRange

/-- The completion of the pending command `i` (R65): `write` applies its rule to the snapshot and writes all
its results, then the command ends. It is enabled only while CST = BUSY (R215; log 11). A command whose operands
acceptance would have refused takes the fault acceptance raises (log 12). -/
def completing (i : Instr) (s : State) (write : Pending → State → State) : Result :=
  match s.cst with
  | .busy p =>
    match operandFault i p with
    | none => .next (finish (write p s))
    | some code => .next (raiseFault code p.word s)
  | .idle => .refused .noPendingCommand
  | .faulted => .refused .noPendingCommand

/-- RES1 and RES0 written (R32). -/
def setRes (lo hi : Word) (s : State) : State := { s with res0 := lo, res1 := hi }

/-- CFRAME and CRC_INFO written (R30, R31). -/
def setCrc (cf : Frame) (info : CrcInfo) (s : State) : State := { s with cframe := cf, crcInfo := info }

/-- The whole MSG record written at once (R107, R108). -/
def setMsg (m : MsgRecord) (s : State) : State := { s with msg := m }

/-- Slot `n` written (R160). -/
def setSlot (n : BitVec 1) (t : Slot) (s : State) : State :=
  if n = 0 then { s with slot0 := t } else { s with slot1 := t }

/-- All CPR result registers written (R163). -/
def setCpr (c : CprResult) (s : State) : State := { s with cpr := c }

end Sys2Proof.Machine
end

