-- ==== Sys2Proof/Machine/BitField.lean ====
section
/-! DEFINITION. NOP and the bit-field reader EXTRACT (R100, R82). -/

namespace Sys2Proof.Machine

/-- NOP: nothing is computed, no result is written (R100). -/
def execNop (s : State) : Result := completing .nop s fun _ s => s

/-- EXTRACT: `RES1:RES0 <- fld(snap[FRAME], START, LEN)` (R82). -/
def execExtract (start len : BitVec 7) (s : State) : Result :=
  completing (.extract start len) s fun p s =>
    let v : DWord := BitVec.ofNat 64 (fld p.snap.frame start.toNat len.toNat)
    setRes (loHalf v) (hiHalf v) s

end Sys2Proof.Machine
end

