-- ==== Sys2Proof/Machine/Float.lean ====
section
/-! DEFINITION. Binary64 by exact rational arithmetic and one rounding (R15): the real result is computed
exactly as a rational number, then rounded to nearest, ties to even. Signs of zero, infinities and NaN follow
IEEE 754, which R15 names (log 13). -/

namespace Sys2Proof.Machine

/-- A binary64 value: `fin neg m e` is `(-1)^neg * m * 2^e`. -/
inductive F64 where
  | nan
  | inf (neg : Bool)
  | fin (neg : Bool) (m : Nat) (e : Int)
  deriving DecidableEq, Repr

/-- The value an encoding stands for (IEEE 754 binary64 interchange format, R15). -/
def ofBits (b : DWord) : F64 :=
  let neg := b.getLsbD 63
  let exp := (b.extractLsb' 52 11).toNat
  let frac := (b.extractLsb' 0 52).toNat
  if exp = 2047 then (if frac = 0 then .inf neg else .nan)
  else if exp = 0 then .fin neg frac (-1074)
  else .fin neg (2 ^ 52 + frac) (exp - 1075)

/-- The encoding of a value in the form rounding leaves it: significand below 2^53, and at least 2^52 unless
the exponent is the least one. -/
def toBits : F64 → DWord
  | .nan => Config.nanBits
  | .inf neg => BitVec.ofBool neg ++ 2047#11 ++ 0#52
  | .fin neg m e =>
    if m < 2 ^ 52 then BitVec.ofBool neg ++ 0#11 ++ BitVec.ofNat 52 m
    else BitVec.ofBool neg ++ BitVec.ofNat 11 (e + 1075).toNat ++ BitVec.ofNat 52 m

/-- The real number a finite value stands for; 0 for the others. -/
def value : F64 → ℚ
  | .nan => 0
  | .inf _ => 0
  | .fin neg m e =>
    mkRat ((if neg then -1 else 1) * (m * 2 ^ e.toNat : Nat)) (2 ^ (-e).toNat)

/-- Neither an infinity nor a NaN. -/
def isFinite : F64 → Bool
  | .nan => false
  | .inf _ => false
  | .fin _ _ _ => true

/-- `floor(log2(n / d))` for positive `n` and `d`. -/
def floorLog2 (n d : Nat) : Int :=
  let k : Int := (Nat.log2 n : Int) - (Nat.log2 d : Int)
  if d * 2 ^ k.toNat ≤ n * 2 ^ (-k).toNat then k else k - 1

/-- The natural number nearest to `n / d`, ties to even. -/
def roundHalfEven (n d : Nat) : Nat :=
  let f := n / d
  let r := n % d
  if 2 * r > d ∨ (2 * r = d ∧ f % 2 = 1) then f + 1 else f

/-- `RN` of `(-1)^neg * n / d`, `d` positive: 53 significand bits, least exponent -1074, overflow to
infinity (R15). -/
def roundMag (neg : Bool) (n d : Nat) : F64 :=
  if n = 0 then .fin neg 0 (-1074)
  else
    let e : Int := max (floorLog2 n d - 52) (-1074)
    let m := roundHalfEven (n * 2 ^ (-e).toNat) (d * 2 ^ e.toNat)
    let (m, e) := if m = 2 ^ 53 then (2 ^ 52, e + 1) else (m, e)
    if e > 971 then .inf neg else .fin neg m e

/-- `RN(q)` with the sign of `q`; the sign of an exact zero is `zeroNeg` (R15). -/
def roundQ (zeroNeg : Bool) (q : ℚ) : F64 :=
  if q = 0 then .fin zeroNeg 0 (-1074) else roundMag (decide (q < 0)) q.num.natAbs q.den

/-- `RN(q)`; an exact zero is +0.0. -/
def rn (q : ℚ) : F64 := roundQ false q

/-- `f64(i)` for an integer (R15). -/
def f64 (i : Int) : F64 := rn i

/-- The sign bit. -/
def signOf : F64 → Bool
  | .nan => false
  | .inf neg => neg
  | .fin neg _ _ => neg

/-- `-a`. -/
def negF : F64 → F64
  | .nan => .nan
  | .inf neg => .inf (!neg)
  | .fin neg m e => .fin (!neg) m e

/-- `a (+) b` (R15). -/
def addF (a b : F64) : F64 :=
  match a, b with
  | .nan, _ => .nan
  | _, .nan => .nan
  | .inf s, .inf t => if s = t then .inf s else .nan
  | .inf s, .fin _ _ _ => .inf s
  | .fin _ _ _, .inf t => .inf t
  | .fin s _ _, .fin t _ _ => roundQ (s && t) (value a + value b)

/-- `a (-) b` (R15). -/
def subF (a b : F64) : F64 := addF a (negF b)

/-- `a (*) b` (R15). -/
def mulF (a b : F64) : F64 :=
  match a, b with
  | .nan, _ => .nan
  | _, .nan => .nan
  | .inf s, .inf t => .inf (s ^^ t)
  | .inf s, .fin t m _ => if m = 0 then .nan else .inf (s ^^ t)
  | .fin s m _, .inf t => if m = 0 then .nan else .inf (s ^^ t)
  | .fin s _ _, .fin t _ _ => roundQ (s ^^ t) (value a * value b)

/-- `a (/) b` (R15). -/
def divF (a b : F64) : F64 :=
  match a, b with
  | .nan, _ => .nan
  | _, .nan => .nan
  | .inf _, .inf _ => .nan
  | .inf s, .fin t _ _ => .inf (s ^^ t)
  | .fin s _ _, .inf t => .fin (s ^^ t) 0 (-1074)
  | .fin s m _, .fin t m' _ =>
    if m' = 0 then (if m = 0 then .nan else .inf (s ^^ t))
    else roundQ (s ^^ t) (value a / value b)

/-- `trunc(q)`: toward zero. -/
def truncQ (q : ℚ) : Int := if 0 ≤ q then q.floor else -((-q).floor)

/-- `fmod64(a, b) = a - b*trunc(a/b)`, exact, a zero result with the sign of `a` (R15, R163). -/
def fmodF (a b : F64) : F64 :=
  match a, b with
  | .nan, _ => .nan
  | _, .nan => .nan
  | .inf _, _ => .nan
  | .fin s m e, .inf _ => .fin s m e
  | .fin s _ _, .fin _ m' _ =>
    if m' = 0 then .nan
    else roundQ s (value a - value b * (truncQ (value a / value b) : ℚ))

/-- The greatest natural number whose square is at most `n`, found bit by bit from bit `k - 1` down,
starting from `acc`. -/
def isqrtBits (n : Nat) : Nat → Nat → Nat
  | 0, acc => acc
  | k + 1, acc =>
    let t := acc + 2 ^ k
    isqrtBits n k (if t * t ≤ n then t else acc)

/-- `sqrt64(f64(n))` for a natural number below 2^53: `RN` of the real square root (R15, R143). With
`sqrt(n) = sqrt(n * 4^s) / 2^s` and `s` such that the integer root has 53 bits, the root is irrational or
exact, so there is no tie. -/
def sqrtNat (n : Nat) : F64 :=
  if n = 0 then .fin false 0 (-1074)
  else
    let s := 52 - Nat.log2 n / 2
    let x := n * 4 ^ s
    let f := isqrtBits x 53 0
    let m := if f * f + f + 1 ≤ x then f + 1 else f
    if m = 2 ^ 53 then .fin false (2 ^ 52) (1 - (s : Int)) else .fin false m (-(s : Int))

end Sys2Proof.Machine
end

