-- ==== Sys2Proof/Machine/Cpr.lean ====
section
/-! DEFINITION. The CPR position resolver: POS_TO_SLOT, CPR_NL and CPR_RESOLVE (R160 to R171). -/

namespace Sys2Proof.Machine

/-- The encodings of `B_59`, `B_58`, ..., `B_2`: `B_n` is the largest binary64 latitude with `n` zones or more
(R162, the table form). -/
def nlBounds : List Nat :=
  [0x4024F0E19D3E251D, 0x402DA8067889CBED, 0x40322FAEF828A751, 0x403507866D05F6E0,
   0x40378B880F707B5C, 0x4039D44989387B4D, 0x403BF061756B1A26, 0x403DE94EAED92AF4,
   0x403FC5A8276E3D93, 0x4040C51C91B7812A, 0x40419D4FBD7E22EE, 0x40426CD506FA440C,
   0x404334CA24AFAE13, 0x4043F616AB9A41DF, 0x4044B1796EB17123, 0x40456791E74DDF0D,
   0x404618E6FF9C74C4, 0x4046C5EC15A09137, 0x40476F04C08ECA22, 0x40481487B395284B]
  ++ [0x4048B6C0FBCE367F, 0x404955F3C428DFAE, 0x4049F25BBD841E7F, 0x404A8C2E40C13690,
   0x404B239B3AB4590D, 0x404BB8CDEDBEC4A7, 0x404C4BED91EDB82C, 0x404CDD1DDA58A0B6,
   0x404D6C7F64E8373B, 0x404DFA30188580F4, 0x404E864B74CDC944, 0x404F10EAD5BB5A9F,
   0x404F9A25AD2B6CFA, 0x40501108D9DEE6AF, 0x40505461891909FC, 0x40509726420D2AB4,
   0x4050D95FBA3B36C5, 0x40511B160A43DF0F, 0x40515C50B672A1AB, 0x40519D16B441997B]
  ++ [0x4051DD6E6C7A4B74, 0x40521D5DB94B81BA, 0x40525CE9DF3E337D, 0x40529C177F4A9F80,
   0x4052DAEA7F414BC2, 0x40531965E3FD8F53, 0x4053578B95D91AE8, 0x4053955C027EB7D0,
   0x4053D2D5853CCAC5, 0x40540FF36B54E0AB, 0x40544CAC40C8D969, 0x405488EEB6311C24,
   0x4054C49B8E990D6B, 0x4054FF7898B812C5, 0x40553910FD1A6F97, 0x40557058BD3A9B97,
   0x4055A243806D99EC, 0x4055C00000000000]

/-- The magnitude bits of a binary64 pattern: its sign bit cleared. Magnitude patterns of non-NaN values are
ordered as the values are. -/
def magnitudeBits (lat : DWord) : Nat := (lat.extractLsb' 0 63).toNat

/-- The pattern is a NaN. -/
def isNaNBits (lat : DWord) : Bool := 0x7FF0000000000000 < magnitudeBits lat

/-- `NL(lat)` (R162): 0 for a NaN, 59 at zero, 0 above 87 degrees, else the table. -/
def nlZones (lat : DWord) : Nat :=
  let a := magnitudeBits lat
  if isNaNBits lat then 0
  else if a = 0 then 59
  else if 0x4055C00000000000 < a then 0
  else 1 + (nlBounds.filter fun b => a ≤ b).length

/-- The slot an airborne-position message fills (R160). -/
def slotOfMsg (m : MsgRecord) : Slot := ⟨m.pos.f, m.pos.latCpr, m.pos.lonCpr, m.ts⟩

/-- POS_TO_SLOT (R160). -/
def execPosToSlot (slot : BitVec 1) (s : State) : Result :=
  completing (.posToSlot slot) s fun p s => setSlot slot (slotOfMsg p.snap.msg) s

/-- CPR_NL (R161). -/
def execCprNl (s : State) : Result :=
  completing .cprNl s fun p s => setRes (BitVec.ofNat 32 (nlZones p.snap.nlLat)) 0 s

/-- Step 1: `f64(v) (/) 131072.0` (R163). -/
def cprNormal (v : BitVec 17) : F64 := divF (f64 v.toNat) (f64 131072)

/-- `fmodz(a, n)`, the non-negative remainder (R13). -/
def fmodz (a : Int) (n : Nat) : Int := a - n * (a / n)

/-- Step 2: `j = floor(59*le - 60*lo + 0.5)`, exact (R163, R166). -/
def cprJIndex (le lo : F64) : Int := (59 * value le - 60 * value lo + 1 / 2).floor

/-- The reduction of step 3: minus 360 if at least 270 (R163, R166). -/
def reduce270 (x : F64) : F64 := if 270 ≤ value x then subF x (f64 360) else x

/-- `latE` (R163, step 3). -/
def latEven (j : Int) (le : F64) : F64 :=
  reduce270 (mulF (f64 6) (addF (f64 (fmodz j 60)) le))

/-- `DLAT_O = RN(360/59)` (R166, R171). -/
def dlatOdd : F64 := rn (360 / 59)

/-- `latO` (R163, step 3). -/
def latOdd (j : Int) (lo : F64) : F64 :=
  reduce270 (mulF dlatOdd (addF (f64 (fmodz j 59)) lo))

/-- Step 6: `m = floor(ge*(nl - 1) - go*nl + 0.5)`, exact (R163, R169). -/
def cprMIndex (nl : Nat) (ge go : F64) : Int :=
  (value ge * ((nl : ℚ) - 1) - value go * (nl : ℚ) + 1 / 2).floor

/-- Step 8: the multiple of the zone width that brings `lon0` closest to the reference (R163, R170). -/
def nearestZone (r lon0 dlon : F64) : Int :=
  (value (addF (divF (subF r lon0) dlon) (rn (1 / 2)))).floor

/-- The wrap into (-180, 180] (R163, R170). -/
def wrap180 (w : F64) : F64 :=
  if 180 < value w then subF w (f64 360)
  else if value w ≤ -180 then addF w (f64 360)
  else w

/-- An invalid result: the coordinates are +0.0 and what was not computed is 0 (R163, R171). -/
def cprInvalid (reason : CprReason) (used : BitVec 1) (nl j m : Int) : CprResult :=
  { valid := false, reason := reason, used := used, nl := BitVec.ofInt 32 nl, j := BitVec.ofInt 32 j,
    m := BitVec.ofInt 32 m, lat := 0, lon := 0 }

/-- The difference of two timestamps as an exact integer, no wrap (R165). -/
def tsDistance (a b : DWord) : Nat := (a.toNat - b.toNat) + (b.toNat - a.toNat)

/-- Steps 6 to 8 and the result (R163, R169, R170): `useEven` is the choice of step 4, `lat` the selected
latitude, `ge` and `go` the normalised longitudes. -/
def resolveLongitude (useEven : Bool) (lat : F64) (nl : Nat) (j : Int) (ge go r : F64) : CprResult :=
  let used : BitVec 1 := if useEven then 0 else 1
  let m := cprMIndex nl ge go
  let ni : Nat := max (nl - (if useEven then 0 else 1)) 1
  let dlon := divF (f64 360) (f64 ni)
  let base := if useEven then ge else go
  let lon0 := mulF dlon (addF (f64 (fmodz m ni)) base)
  let k := nearestZone r lon0 dlon
  let lon1 := addF lon0 (mulF (f64 k) dlon)
  if isFinite lon1 then
    { valid := true, reason := .ok, used := used, nl := BitVec.ofInt 32 nl, j := BitVec.ofInt 32 j,
      m := BitVec.ofInt 32 m, lat := toBits lat, lon := toBits (wrap180 (fmodF lon1 (f64 360))) }
  else cprInvalid .ref used nl j m

/-- CPR_RESOLVE for an even slot `E` and an odd slot `O` (R163, from precondition 2 on). -/
def resolvePair (E O : Slot) (refLon : DWord) : CprResult :=
  if Config.pairWindow < tsDistance E.ts O.ts then cprInvalid .stale 0 0 0 0
  else
    let le := cprNormal E.lat
    let lo := cprNormal O.lat
    let j := cprJIndex le lo
    let useEven : Bool := O.ts.toNat < E.ts.toNat
    let lat := if useEven then latEven j le else latOdd j lo
    let used : BitVec 1 := if useEven then 0 else 1
    let nl := nlZones (toBits lat)
    if nl = 0 then cprInvalid .nl used 0 j 0
    else
      let r := ofBits refLon
      if isFinite r then
        resolveLongitude useEven lat nl j (cprNormal E.lon) (cprNormal O.lon) r
      else cprInvalid .ref used nl j 0

/-- CPR_RESOLVE on two slots: the roles come from the parity tags (R163, R164; 90_conflicts.md C6). -/
def cprResolve (s0 s1 : Slot) (refLon : DWord) : CprResult :=
  if s0.f = s1.f then cprInvalid .parity 0 0 0 0
  else if s0.f = 0 then resolvePair s0 s1 refLon
  else resolvePair s1 s0 refLon

/-- CPR_RESOLVE (R163). -/
def execCprResolve (s : State) : Result :=
  completing .cprResolve s fun p s => setCpr (cprResolve p.snap.slot0 p.snap.slot1 p.snap.refLon) s

end Sys2Proof.Machine
end

