-- ==== Sys2Proof/Machine/Crc.lean ====
section
/-! DEFINITION. CRC-24, the single-bit flip retry, and the commands CRC_CHECK and CRC_CORRECT (R90 to R94). -/

namespace Sys2Proof.Machine

/-- One step of the register of R91: shift left, XOR the generator "whenever bit 24 is set", truncate to 24
bits. -/
def crcShift (acc : BitVec 24) : BitVec 24 :=
  let t : BitVec 25 := acc.setWidth 25 <<< 1
  if t.getLsbD 24 then (t ^^^ Config.crcPoly.setWidth 25).setWidth 24 else t.setWidth 24

/-- `n` steps of the register (R91). -/
def crcShifts : Nat → BitVec 24 → BitVec 24
  | 0, acc => acc
  | n + 1, acc => crcShifts n (crcShift acc)

/-- One byte: "XOR it into bits 16-23", "then shift left 8 times" (R91). -/
def crcByte (acc : BitVec 24) (b : Byte) : BitVec 24 :=
  crcShifts 8 (acc ^^^ b.setWidth 24 <<< 16)

/-- The register after the first 11 bytes (R91). -/
def crcData (F : Frame) : BitVec 24 :=
  (List.range 11).foldl (fun acc m => crcByte acc (frameByte F m)) 0

/-- The three parity bytes, B[11] uppermost (R91). -/
def parityField (F : Frame) : BitVec 24 := frameByte F 11 ++ frameByte F 12 ++ frameByte F 13

/-- `CRC24(F)`, the syndrome (R91): zero means the frame passes. -/
def crc24 (F : Frame) : BitVec 24 := crcData F ^^^ parityField F

/-- What `CRCFIX` returns (R93). -/
structure CrcFix where
  pass : Bool
  flip : BitVec 7
  frame : Frame
  syndrome : BitVec 24
  deriving DecidableEq, Repr

/-- `CRCFIX(F)`: the straight check, then the 112 single-bit flips in ascending order (R93). -/
def crcFix (F : Frame) : CrcFix :=
  let s := crc24 F
  if s = 0 then ⟨true, Config.noFlip, F, s⟩
  else
    match (List.range Config.frameBits).find? (fun i => crc24 (flipBit F i) == 0) with
    | some i => ⟨true, BitVec.ofNat 7 i, flipBit F i, s⟩
    | none => ⟨false, Config.noFlip, F, s⟩

/-- CRC_INFO of a `CRCFIX` result (R94). -/
def fixInfo (r : CrcFix) : CrcInfo := ⟨r.pass, r.flip, r.syndrome⟩

/-- CRC_CHECK: the straight check, no retry (R92). -/
def execCrcCheck (s : State) : Result :=
  completing .crcCheck s fun p s =>
    let syn := crc24 p.snap.frame
    setCrc p.snap.frame ⟨decide (syn = 0), Config.noFlip, syn⟩ s

/-- CRC_CORRECT: the check with single-bit flip retry (R94). -/
def execCrcCorrect (s : State) : Result :=
  completing .crcCorrect s fun p s =>
    let r := crcFix p.snap.frame
    setCrc r.frame (fixInfo r) s

end Sys2Proof.Machine
end

