-- ==== Sys2Proof/Machine/Identification.lean ====
section
/-! DEFINITION. The fields of an identification message (R111 to R114). -/

namespace Sys2Proof.Machine

/-- `CATOFF(tc)`, the category offset (R112; 90_conflicts.md C2). -/
def catOffset (tc : Nat) : Nat :=
  if tc = 4 then 24 else if tc = 3 then 16 else if tc = 2 then 8 else 0

/-- `CHARTAB[c]`, the ASCII code of a 6-bit character code (R113). -/
def charTab (c : Nat) : Byte :=
  if 1 ≤ c ∧ c ≤ 26 then BitVec.ofNat 8 (0x40 + c)
  else if c = 32 then 0x20#8
  else if 48 ≤ c ∧ c ≤ 57 then BitVec.ofNat 8 c
  else 0x3F#8

/-- Character `i` of the name before trimming (R111). -/
def nameChar (X : Frame) (i : Nat) : Byte := charTab (payload X (8 + 6 * i) 6)

/-- The length of the first `n` characters once trailing spaces are stripped (R111, R114). -/
def trimmedLen (ch : Nat → Byte) : Nat → Nat
  | 0 => 0
  | n + 1 => if ch n = 0x20#8 then trimmedLen ch n else n + 1

/-- Byte `i` of the name: the character if it is inside the length, else 0x00 (R111). -/
def nameByte (X : Frame) (len i : Nat) : Byte := if i < len then nameChar X i else 0x00#8

/-- The eight bytes of the name, byte `i` in bits 8i+7..8i (R37, R111). -/
def nameBits (X : Frame) (len : Nat) : DWord :=
  nameByte X len 7 ++ nameByte X len 6 ++ nameByte X len 5 ++ nameByte X len 4
    ++ nameByte X len 3 ++ nameByte X len 2 ++ nameByte X len 1 ++ nameByte X len 0

/-- `ID_FIELDS(X)` (R111). -/
def idFields (X : Frame) : IdRecord :=
  let ca := payload X 5 3
  let off := catOffset (typeCode X)
  let len := trimmedLen (nameChar X) 8
  { cat := BitVec.ofNat 5 (off + ca)
    ca := BitVec.ofNat 3 ca
    set := BitVec.ofNat 2 (off / 8)
    nameLen := BitVec.ofNat 4 len
    name := nameBits X len }

end Sys2Proof.Machine
end

