-- ==== Sys2Proof/Machine/Position.lean ====
section
/-! DEFINITION. Gray code, the two altitude encodings, the fields of an airborne-position message, and the
commands GRAY3 and ALT12 (R120 to R128). -/

namespace Sys2Proof.Machine

/-- `GRAY3F(g)`: `b2 = g2; b1 = b2 xor g1; b0 = b1 xor g0` (R122). -/
def grayToBinary (g : BitVec 3) : BitVec 3 :=
  let b2 := g.getLsbD 2
  let b1 := b2 ^^ g.getLsbD 1
  let b0 := b1 ^^ g.getLsbD 0
  BitVec.ofBool b2 ++ BitVec.ofBool b1 ++ BitVec.ofBool b0

/-- The Gray group `{a[i], a[j], a[k]}` of an altitude field (R125). -/
def grayGroup (a : BitVec 12) (i j k : Nat) : Nat :=
  (grayToBinary (BitVec.ofBool (a.getLsbD i) ++ BitVec.ofBool (a.getLsbD j)
    ++ BitVec.ofBool (a.getLsbD k))).toNat

/-- Group D: the two bits `{a[11], a[9]}` below a leading 0 (R125). -/
def grayGroupD (a : BitVec 12) : Nat :=
  (grayToBinary (0#1 ++ BitVec.ofBool (a.getLsbD 11) ++ BitVec.ofBool (a.getLsbD 9))).toNat

/-- The 500 ft group value `n500 = gd*64 + ga*8 + gb` (R125). -/
def group500 (a : BitVec 12) : Nat :=
  grayGroupD a * 64 + grayGroup a 6 3 1 * 8 + grayGroup a 10 8 7

/-- The 100 ft group value `n100 = gc` (R125; 90_conflicts.md C3). -/
def group100 (a : BitVec 12) : Nat := grayGroup a 5 2 0

/-- The offset table T of R126 at the indices 1 to 6. -/
def gillhamOffset (n100 : Nat) : Int :=
  if n100 = 1 then 0 else if n100 = 2 then 100 else if n100 = 3 then 200
  else if n100 = 4 then 300 else if n100 = 5 then -200 else -100

/-- `GILLHAM(a)` (R126). -/
def gillham (a : BitVec 12) : Int × AltInfo :=
  let n500 := group500 a
  let n100 := group100 a
  if n500 = 0 ∧ n100 = 0 then (0, { AltInfo.zero with path := .gillhamZero })
  else if n100 = 0 ∨ n100 = 7 then
    (0, { AltInfo.zero with
          path := .gillhamInvalid, n500 := BitVec.ofNat 8 n500, n100 := BitVec.ofNat 3 n100 })
  else
    (((n500 : Int) * 500 - 1200) + gillhamOffset n100,
      { AltInfo.zero with
        path := .gillham, n500 := BitVec.ofNat 8 n500, n100 := BitVec.ofNat 3 n100 })

/-- The 11-bit count `N = {a[11:5], a[3:0]}` (R123). -/
def count25 (a : BitVec 12) : BitVec 11 := a.extractLsb' 5 7 ++ a.extractLsb' 0 4

/-- `ALTDEC(a)`: the Q-bit `a[4]` selects the encoding (R123). -/
def altDecode (a : BitVec 12) : Int × AltInfo :=
  if a.getLsbD 4 then
    (((count25 a).toNat : Int) * 25 - 1000,
      { AltInfo.zero with path := .ft25, q := 1#1, n25 := count25 a })
  else gillham a

/-- `POS_FIELDS(X)` (R128). -/
def posFields (X : Frame) : PosRecord :=
  let a := BitVec.ofNat 12 (payload X 8 12)
  { ss := BitVec.ofNat 2 (payload X 5 2)
    nicsb := payloadBit X 7
    t := payloadBit X 20
    f := payloadBit X 21
    altRaw := a
    alt := BitVec.ofInt 32 (altDecode a).1
    altInfo := (altDecode a).2
    latCpr := BitVec.ofNat 17 (payload X 22 17)
    lonCpr := BitVec.ofNat 17 (payload X 39 17) }

/-- GRAY3 (R120). -/
def execGray3 (g : BitVec 3) (s : State) : Result :=
  completing (.gray3 g) s fun _ s => setRes ((grayToBinary g).setWidth 32) 0 s

/-- ALT12 (R121). -/
def execAlt12 (alt : BitVec 12) (s : State) : Result :=
  completing (.alt12 alt) s fun _ s =>
    setRes (BitVec.ofInt 32 (altDecode alt).1) (altInfoWord (altDecode alt).2) s

end Sys2Proof.Machine
end

