-- ==== Sys2Proof/Machine/Velocity.lean ====
section
/-! DEFINITION. The fields of a velocity message: components, speed and heading (R141 to R145).
The heading is one rounding of an exact real (R144). It is computed by enclosing the exact angle between two
rational numbers: partial sums of the arctangent series bracket the arctangent, and Machin's formula over the
same sums brackets pi (log 14). -/

namespace Sys2Proof.Machine

/-- `COMP(s, raw, scale)` (R142). -/
def velComponent (neg : Bool) (raw scale : Nat) : Int :=
  if raw = 0 then 0
  else
    let v : Int := ((raw - 1) * scale : Nat)
    if neg then -v else v

/-- `SPEED(EW, NS)`: the correctly rounded root of the exact sum of squares (R143). -/
def speedF (ew ns : Int) : F64 := sqrtNat (ew * ew + ns * ns).toNat

/-- Two rational numbers an exact real lies between. -/
structure Enclosure where
  lo : ℚ
  hi : ℚ
  deriving DecidableEq

/-- The first `n` terms of the series `t - t^3/3 + t^5/5 - ...` of the arctangent. -/
def atanSum (t : ℚ) : Nat → ℚ
  | 0 => 0
  | n + 1 => atanSum t n + (-1) ^ n * t ^ (2 * n + 1) / ((2 * n + 1 : Nat) : ℚ)

/-- The arctangent of `t` in [0, 1]: an even number of terms is below it, an odd number above. -/
def atanEnclosure (t : ℚ) : Enclosure := ⟨atanSum t 40, atanSum t 41⟩

/-- `pi = 16 arctan(1/5) - 4 arctan(1/239)`. -/
def piEnclosure : Enclosure :=
  let a := atanEnclosure (1 / 5)
  let b := atanEnclosure (1 / 239)
  ⟨16 * a.lo - 4 * b.hi, 16 * a.hi - 4 * b.lo⟩

/-- `arctan(t) * 180 / pi`. -/
def atanDegrees (t : ℚ) : Enclosure :=
  let a := atanEnclosure t
  ⟨180 * a.lo / piEnclosure.hi, 180 * a.hi / piEnclosure.lo⟩

/-- `c` minus an enclosed real. -/
def subFrom (c : ℚ) (e : Enclosure) : Enclosure := ⟨c - e.hi, c - e.lo⟩

/-- `c` plus an enclosed real. -/
def addTo (c : ℚ) (e : Enclosure) : Enclosure := ⟨c + e.lo, c + e.hi⟩

/-- `arctan(y / x) * 180 / pi` for `0 ≤ y ≤ x`, `0 < x`; above 5/12 by
`arctan(y/x) = pi/4 - arctan((x-y)/(x+y))`, so that the series converges fast. -/
def octantDegrees (y x : Nat) : Enclosure :=
  if 12 * y ≤ 5 * x then atanDegrees ((y : ℚ) / (x : ℚ))
  else subFrom 45 (atanDegrees (((x - y : Nat) : ℚ) / ((x + y : Nat) : ℚ)))

/-- `atan2(y, x) * 180 / pi` for `y, x ≥ 0`, not both 0. -/
def quadrantDegrees (y x : Nat) : Enclosure :=
  if y ≤ x then octantDegrees y x else subFrom 90 (octantDegrees x y)

/-- `H = atan2(EW, NS) * 180 / pi`, plus 360 if negative, for components not both 0 (R144): the angle of the
point (NS, EW), by the quadrant the signs select. -/
def headingEnclosure (ew ns : Int) : Enclosure :=
  let q := quadrantDegrees ew.natAbs ns.natAbs
  if 0 ≤ ns then (if 0 ≤ ew then q else subFrom 360 q)
  else (if 0 ≤ ew then subFrom 180 q else addTo 180 q)

/-- `HEADING(EW, NS)` (R144): the enclosed exact angle rounded once. Both ends of the enclosure round to the
same value for all components the encoding admits (log 14). -/
def headingF (ew ns : Int) : F64 :=
  if ew = 0 ∧ ns = 0 then .fin false 0 (-1074) else rn (headingEnclosure ew ns).lo

/-- `VEL_FIELDS(X)` (R141, R145). -/
def velFields (X : Frame) : VelRecord :=
  let st := payload X 5 3
  if st = 1 ∨ st = 2 then
    let ew := velComponent (frameBit X (32 + 13)) (payload X 14 10) 1
    let ns := velComponent (frameBit X (32 + 24)) (payload X 25 10) 1
    let vr := velComponent (frameBit X (32 + 36)) (payload X 37 9) 64
    { sub := BitVec.ofNat 3 st
      ew := BitVec.ofInt 32 ew
      ns := BitVec.ofInt 32 ns
      vr := BitVec.ofInt 32 vr
      speed := toBits (speedF ew ns)
      hdg := toBits (headingF ew ns) }
  else { VelRecord.zero with sub := BitVec.ofNat 3 st }

end Sys2Proof.Machine
end

