-- ==== Sys2Proof/Machine/FrameDecode.lean ====
section
/-! DEFINITION. The frame decoder and the commands that construct a message: DECODE, DEC_ID, DEC_POS, DEC_VEL
(R101 to R108, R110, R127, R140). -/

namespace Sys2Proof.Machine

/-- `DISPATCH(tc)` (R106). -/
def dispatch (tc : Nat) : MsgKind :=
  if 1 ≤ tc ∧ tc ≤ 4 then .identification
  else if 9 ≤ tc ∧ tc ≤ 18 then .airbornePosition
  else if tc = 19 then .velocity
  else .noMessage

/-- `REJECT(r)`: the whole record zero but for the reason (R107). -/
def rejectMsg (r : MsgReason) : MsgRecord := { MsgRecord.zero with reason := r }

/-- The common header of a message constructed from `X`, the rest of the record zero (R105, R108). -/
def msgHeader (kind : MsgKind) (X : Frame) (ts : DWord) : MsgRecord :=
  { MsgRecord.zero with
    kind := kind
    icao := BitVec.ofNat 24 (fld X 8 24)
    tc := BitVec.ofNat 5 (typeCode X)
    df := BitVec.ofNat 5 (downlinkFormat X)
    ts := ts }

/-- `MAKE_MSG(kind, X)` with the sample `ts` of NOW (R108). -/
def makeMsg (kind : MsgKind) (X : Frame) (ts : DWord) : MsgRecord :=
  match kind with
  | .identification => { msgHeader kind X ts with id := idFields X }
  | .airbornePosition => { msgHeader kind X ts with pos := posFields X }
  | .velocity => { msgHeader kind X ts with vel := velFields X }
  | .noMessage => msgHeader kind X ts

/-- Steps 3 to 7 of DECODE on the corrected frame (R104 to R106, R108). -/
def dispatchFrame (CF : Frame) (ts : DWord) : MsgRecord :=
  if downlinkFormat CF ≠ Config.acceptedDf then rejectMsg .df
  else
    match dispatch (typeCode CF) with
    | .noMessage => rejectMsg .tc
    | .identification => makeMsg .identification CF ts
    | .airbornePosition => makeMsg .airbornePosition CF ts
    | .velocity => makeMsg .velocity CF ts

/-- DECODE (R101 to R108): length, CRC with retry, Downlink Format, Type Code, message. -/
def execDecode (s : State) : Result :=
  completing .decode s fun p s =>
    if p.snap.frameLen.toNat ≠ Config.frameBits then setMsg (rejectMsg .len) s
    else
      let r := crcFix p.snap.frame
      let msg := if r.pass then dispatchFrame r.frame (timestamp p s) else rejectMsg .crc
      setMsg msg (setCrc r.frame (fixInfo r) s)

/-- DEC_ID (R110). -/
def execDecId (s : State) : Result :=
  completing .decId s fun p s => setMsg (makeMsg .identification p.snap.frame (timestamp p s)) s

/-- DEC_POS (R127). -/
def execDecPos (s : State) : Result :=
  completing .decPos s fun p s => setMsg (makeMsg .airbornePosition p.snap.frame (timestamp p s)) s

/-- DEC_VEL (R140). -/
def execDecVel (s : State) : Result :=
  completing .decVel s fun p s => setMsg (makeMsg .velocity p.snap.frame (timestamp p s)) s

end Sys2Proof.Machine
end

