-- ==== Sys2Proof/Machine/Dispatch.lean ====
section
/-! DEFINITION. One arm per command: its completion (R65). -/

namespace Sys2Proof.Machine

def exec (i : Instr) (s : State) : Host.Outcome State Fault Refusal :=
  match i with
  | .nop => Sys2Proof.Machine.execNop s
  | .extract start len => Sys2Proof.Machine.execExtract start len s
  | .crcCheck => Sys2Proof.Machine.execCrcCheck s
  | .crcCorrect => Sys2Proof.Machine.execCrcCorrect s
  | .decode => Sys2Proof.Machine.execDecode s
  | .decId => Sys2Proof.Machine.execDecId s
  | .gray3 g => Sys2Proof.Machine.execGray3 g s
  | .alt12 alt => Sys2Proof.Machine.execAlt12 alt s
  | .decPos => Sys2Proof.Machine.execDecPos s
  | .decVel => Sys2Proof.Machine.execDecVel s
  | .posToSlot slot => Sys2Proof.Machine.execPosToSlot slot s
  | .cprNl => Sys2Proof.Machine.execCprNl s
  | .cprResolve => Sys2Proof.Machine.execCprResolve s

end Sys2Proof.Machine
end

