-- ==== Sys2Proof/Machine/Schedule.lean ====
section
/-! DEFINITION. The three agents of R215 on one schedule: what each move does, and how a command is loaded so
that the next step runs it (logs 1, 2, 3, 5, 8). -/

namespace Sys2Proof.Machine

/-- The block's step: the completion of the pending command, enabled while CST = BUSY (R65, R215). Where none
is pending the block does nothing. The pending word is the command acceptance decoded (R64). -/
def blockStep (s : State) : Result :=
  match s.cst with
  | .busy p =>
    match decode p.word with
    | .ok i => exec i s
    | .error _ => .refused .pendingWordIllegal
  | .idle => .next s
  | .faulted => .next s

/-- The effect of one move of the schedule, the move already taken off it. -/
def takeEvent (e : Event) (s : State) : Result :=
  match e with
  | .read addr size => hostRead addr size s
  | .write addr size v => hostWrite addr size v s
  | .complete => blockStep s
  | .sample => .next (sampleNow s)
  | .driveNow ms => .next { s with now := ms }
  | .assertReset => .next (resetBlock { s with resetAsserted := true })
  | .releaseReset => .next { s with resetAsserted := false }

/-- One step: the first move of the schedule; when no move is left, a pending command completes (every
command does, R232) and an idle or faulted block stays as it is. -/
def advance (s : State) : Result :=
  match s.events with
  | [] => blockStep s
  | e :: rest => takeEvent e { s with events := rest }

/-- The state a word is accepted from: IDLE, no fault recorded, reset released; and for POS_TO_SLOT an
airborne-position message in the record, which its acceptance asks for (R64). -/
def readyFor (w : Word) (s : State) : State :=
  { s with
    cst := .idle
    faultCode := .noFault
    faultCmd := 0
    resetAsserted := false
    msg :=
      match decode w with
      | .ok (.posToSlot _) => { s.msg with kind := .airbornePosition, reason := .ok }
      | _ => s.msg }

/-- The word written to CMD and accepted, its completion the next move of the schedule (log 5). -/
def loadCommand (w : Word) (s : State) : State :=
  { hostCommand w (readyFor w s) with events := .complete :: s.events }

end Sys2Proof.Machine
end

