-- ==== Sys2Proof/Machine/Step.lean ====
section
/-! DEFINITION. One step of the machine, and the placement of a command where the next step runs it. -/

namespace Sys2Proof.Machine

/-- One step: one move of one agent (R215). -/
def step (s : State) : Host.Outcome State Fault Refusal := advance s

/-- `s` with the command word of a table row pending and its completion the next move (log 5). -/
def State.withFetchWord (s : State) (_nbits w : Nat) : State := loadCommand (BitVec.ofNat 32 w) s

end Sys2Proof.Machine
end

