-- ==== Sys2Proof/Safety.lean ====
section
/-! DEFINITION. What counts as a safe run, in the terms the claims use: the legal states (the invariant), the end
of a run, and the platform's duty. -/

namespace Sys2Proof.Machine

/-- The legal combinations of (BUSY, DONE, FAULT): (1,0,0), (0,1,0), (0,0,1), and (0,0,0) only after reset, where
no result register has been written since (R25, R33). -/
def flagsLegal (s : State) : Bool :=
  match s.cst with
  | .busy _ => !s.done
  | .faulted => !s.done
  | .idle =>
    s.done ||
      (s.lastop == 0 && s.cframe == 0 && s.crcInfo == State.reset.crcInfo && s.res0 == 0 && s.res1 == 0
        && s.msg == MsgRecord.zero && s.cpr == CprResult.zero)

/-- FAULT_CODE names a fault exactly in FAULTED; FAULT_CMD is 0 elsewhere (R26, R27, R202, R205, R209). -/
def faultRegsLegal (s : State) : Bool :=
  match s.cst with
  | .faulted => s.faultCode != .noFault
  | .idle => s.faultCode == .noFault && s.faultCmd == 0
  | .busy _ => s.faultCode == .noFault && s.faultCmd == 0

/-- The pending word is a command acceptance lets through, LASTOP is its opcode, and the latched MSG record is
the current one, since no MSG register changes while a command is pending (R47, R64, R233). -/
def pendingLegal (s : State) : Bool :=
  match s.cst with
  | .busy p =>
    (match decode p.word with
      | .ok i => sourceFault i p.snap.msg.kind == none
      | .error _ => false)
      && s.lastop == opField p.word && p.snap.msg == s.msg
  | .idle => true
  | .faulted => true

/-- LASTOP is 0x00 or the opcode of an accepted command (R25, R63). -/
def lastopLegal (s : State) : Bool := s.lastop.toNat ≤ 0x0C

/-- CRC_INFO and CFRAME: the three combinations of R94 (and the reset value), and CFRAME passes the CRC when
PASS = 1 (R30, R31). -/
def crcLegal (s : State) : Bool :=
  if s.crcInfo.pass then
    (crc24 s.cframe == 0) &&
      (if s.crcInfo.flip = Config.noFlip then s.crcInfo.syndrome == 0
       else s.crcInfo.flip.toNat < 112 && s.crcInfo.syndrome != 0)
  else s.crcInfo.flip == Config.noFlip

/-- The MSG record is a rejection (or the reset record), or one complete message with the registers of the
other variants 0 (R107, R108), and a name has at most 8 characters (R114). -/
def msgLegal (m : MsgRecord) : Bool :=
  match m.kind with
  | .noMessage => m == rejectMsg m.reason
  | .identification =>
    m.reason == .ok && m.pos == PosRecord.zero && m.vel == VelRecord.zero && m.id.nameLen.toNat ≤ 8
  | .airbornePosition => m.reason == .ok && m.id == IdRecord.zero && m.vel == VelRecord.zero
  | .velocity => m.reason == .ok && m.id == IdRecord.zero && m.pos == PosRecord.zero

/-- The CPR result: a valid one has REASON OK, an invalid one has coordinates +0.0, and an invalid one with
REASON OK is the reset value (R44, R45, R171). -/
def cprLegal (c : CprResult) : Bool :=
  if c.valid then c.reason == .ok
  else c.lat == 0 && c.lon == 0 && (c.reason != .ok || c == CprResult.zero)

/-- While reset is asserted the block is at its reset values (R230). -/
def resetHeld (s : State) : Bool := !s.resetAsserted || s == resetBlock s

/-- The invariant of the block: every step keeps it, and it holds right after reset. -/
def legalState (s : State) : Bool :=
  flagsLegal s && faultRegsLegal s && pendingLegal s && lastopLegal s && crcLegal s && msgLegal s.msg
    && cprLegal s.cpr && resetHeld s

/-- The move is a host access. -/
def isHostAccess : Event → Bool
  | .read _ _ => true
  | .write _ _ _ => true
  | .complete => false
  | .sample => false
  | .driveNow _ => false
  | .assertReset => false
  | .releaseReset => false

/-- The end of a run: the host has performed its last access and the block is not BUSY (R237). -/
def runEnded (s : State) : Bool := !s.events.any isHostAccess && !busyFlag s

/-- A successful end: "A run that ends with CST = FAULTED is a faulted run, not a successful one" (R237). -/
def runSucceeded (s : State) : Bool := runEnded s && !faultFlag s

/-- The platform keeps NOW non-decreasing over the schedule, from the value it drives now (R218). -/
def nowMonotone (now : DWord) : List Event → Bool
  | [] => true
  | .driveNow ms :: rest => now.toNat ≤ ms.toNat && nowMonotone ms rest
  | .read _ _ :: rest => nowMonotone now rest
  | .write _ _ _ :: rest => nowMonotone now rest
  | .complete :: rest => nowMonotone now rest
  | .sample :: rest => nowMonotone now rest
  | .assertReset :: rest => nowMonotone now rest
  | .releaseReset :: rest => nowMonotone now rest

end Sys2Proof.Machine
end

