-- ==== Sys2Proof/Certificates/Slice0/Obligations.lean ====
section
/-! DEFINITION. The statements for the provers. Each is `def Obligations.<Name> : Prop`; the helpers before them
say in their own terms what the spec's tables and formulas say. -/

namespace Sys2Proof.Claims

open Sys2Proof.Machine

/-- A field of a frame by arithmetic: the 112-bit number with `F{0}` most significant (R12, R80). -/
def fieldOf (F : Frame) (a n : Nat) : Nat := F.toNat / 2 ^ (112 - (a + n)) % 2 ^ n

/-- The frame with only bit `F{i}` set, `e_i` of R96. -/
def unitFrame (i : Nat) : Frame := BitVec.ofNat 112 (2 ^ (111 - i))

/-- Every register but those listed reads as before. -/
def SameRegsExcept (W : List Reg) (s t : State) : Prop := ∀ r : Reg, r ∉ W → readReg t r = readReg s r

/-- The platform's inputs and the schedule are as before. -/
def SameOutside (s t : State) : Prop :=
  t.now = s.now ∧ t.resetAsserted = s.resetAsserted ∧ t.basePage = s.basePage ∧ t.events = s.events ∧
    t.response = s.response

/-- A command ended: IDLE, nothing pending, STATUS with DONE = 1, BUSY = 0, FAULT = 0 and LASTOP as before
(R65, R25); every register not listed (and not STATUS) reads as before. -/
def CompletesWriting (W : List Reg) (s t : State) : Prop :=
  t.cst = .idle ∧ readReg t .status = 0#16 ++ s.lastop ++ 0x02#8 ∧ SameRegsExcept (.status :: W) s t ∧
    SameOutside s t

/-- RES0 and RES1. -/
def resRegs : List Reg := [.res0, .res1]
/-- CFRAME0 to CFRAME3 and CRC_INFO. -/
def crcRegs : List Reg := [.cframe0, .cframe1, .cframe2, .cframe3, .crcInfo]
/-- The MSG record. -/
def msgRegs : List Reg :=
  [.msgKind, .msgIcao, .msgTcdf, .msgTsLo, .msgTsHi, .idCat, .idNameLen, .idName0, .idName1, .posFlags,
    .posAltRaw, .posAlt, .posAltInfo, .posLatCpr, .posLonCpr, .velSub, .velEw, .velNs, .velVr, .velSpeedLo,
    .velSpeedHi, .velHdgLo, .velHdgHi]
/-- The five registers of a slot. -/
def slotRegs (n : BitVec 1) : List Reg :=
  if n = 0 then [.slot0F, .slot0Lat, .slot0Lon, .slot0TsLo, .slot0TsHi]
  else [.slot1F, .slot1Lat, .slot1Lon, .slot1TsLo, .slot1TsHi]
/-- The CPR result registers. -/
def cprRegs : List Reg := [.cprStatus, .cprNl, .cprJ, .cprM, .cprLatLo, .cprLatHi, .cprLonLo, .cprLonHi]

/-- "Results written" of each command's rule (R82 to R163). -/
def writtenRegs : Instr → List Reg
  | .nop => []
  | .extract _ _ => resRegs
  | .crcCheck => crcRegs
  | .crcCorrect => crcRegs
  | .decode => msgRegs ++ crcRegs
  | .decId => msgRegs
  | .gray3 _ => resRegs
  | .alt12 _ => resRegs
  | .decPos => msgRegs
  | .decVel => msgRegs
  | .posToSlot slot => slotRegs slot
  | .cprNl => resRegs
  | .cprResolve => cprRegs

/-- The registers a host write stores to, with their writable bits (R23, R28, R29, R42, R43). -/
def writableMask : Reg → Option Word
  | .frameLen => some 0x000000FF#32
  | .frame0 | .frame1 | .frame2 => some 0xFFFFFFFF#32
  | .frame3 => some 0xFFFF0000#32
  | .slot0F | .slot1F => some 0x00000001#32
  | .slot0Lat | .slot0Lon | .slot1Lat | .slot1Lon => some 0x0001FFFF#32
  | .slot0TsLo | .slot0TsHi | .slot1TsLo | .slot1TsHi => some 0xFFFFFFFF#32
  | .refLatLo | .refLatHi | .refLonLo | .refLonHi | .nlLatLo | .nlLatHi => some 0xFFFFFFFF#32
  | _ => none

/-- The bits of each register that are not reserved (R24 to R45). -/
def definedBits : Reg → Word
  | .cmd => 0
  | .status => 0x0000FF07#32
  | .faultCode => 0x0000000F#32
  | .frameLen => 0x000000FF#32
  | .frame3 | .cframe3 => 0xFFFF0000#32
  | .msgKind => 0x00000073#32
  | .msgIcao => 0x00FFFFFF#32
  | .msgTcdf => 0x00001F1F#32
  | .idCat => 0x0000371F#32
  | .idNameLen => 0x0000000F#32
  | .posFlags => 0x00001113#32
  | .posAltRaw => 0x00000FFF#32
  | .posAltInfo => 0x7FF7FF07#32
  | .posLatCpr | .posLonCpr | .slot0Lat | .slot0Lon | .slot1Lat | .slot1Lon => 0x0001FFFF#32
  | .velSub => 0x00000007#32
  | .slot0F | .slot1F => 0x00000001#32
  | .cprStatus => 0x00000171#32
  | _ => 0xFFFFFFFF#32

/-- The map R24: every register at its offset. -/
def registerMap : List (Nat × Reg) :=
  [(0x000, .cmd), (0x004, .status), (0x008, .faultCode), (0x00C, .faultCmd), (0x010, .frameLen),
   (0x020, .frame0), (0x024, .frame1), (0x028, .frame2), (0x02C, .frame3), (0x030, .cframe0),
   (0x034, .cframe1), (0x038, .cframe2), (0x03C, .cframe3), (0x040, .crcInfo), (0x044, .res0),
   (0x048, .res1), (0x050, .msgKind), (0x054, .msgIcao), (0x058, .msgTcdf), (0x060, .msgTsLo),
   (0x064, .msgTsHi), (0x070, .idCat), (0x074, .idNameLen), (0x078, .idName0), (0x07C, .idName1),
   (0x080, .posFlags), (0x084, .posAltRaw), (0x088, .posAlt), (0x08C, .posAltInfo), (0x090, .posLatCpr),
   (0x094, .posLonCpr), (0x0A0, .velSub)]
  ++ [(0x0A4, .velEw), (0x0A8, .velNs), (0x0AC, .velVr), (0x0B0, .velSpeedLo), (0x0B4, .velSpeedHi),
   (0x0B8, .velHdgLo), (0x0BC, .velHdgHi), (0x0C0, .slot0F), (0x0C4, .slot0Lat), (0x0C8, .slot0Lon),
   (0x0D0, .slot0TsLo), (0x0D4, .slot0TsHi), (0x0E0, .slot1F), (0x0E4, .slot1Lat), (0x0E8, .slot1Lon),
   (0x0F0, .slot1TsLo), (0x0F4, .slot1TsHi), (0x100, .refLatLo), (0x104, .refLatHi), (0x108, .refLonLo),
   (0x10C, .refLonHi), (0x110, .nlLatLo), (0x114, .nlLatHi), (0x120, .cprStatus), (0x124, .cprNl),
   (0x128, .cprJ), (0x12C, .cprM), (0x130, .cprLatLo), (0x134, .cprLatHi), (0x138, .cprLonLo),
   (0x13C, .cprLonHi)]

/-- The fault codes by number (R26, R202). -/
def faultNumber : FaultCode → Nat
  | .noFault => 0 | .illegalOpcode => 1 | .reservedBits => 2 | .extractRange => 3 | .overrun => 4
  | .slotSource => 5

/-- MSG_KIND.KIND by number (R33). -/
def kindNumber : MsgKind → Nat
  | .noMessage => 0 | .identification => 1 | .airbornePosition => 2 | .velocity => 3

/-- MSG_KIND.REASON by number (R33). -/
def reasonNumber : MsgReason → Nat
  | .ok => 0 | .len => 1 | .crc => 2 | .df => 3 | .tc => 4

/-- POS_ALTINFO.PATH by number (R39). -/
def pathNumber : AltPath → Nat
  | .ft25 => 0 | .gillham => 1 | .gillhamZero => 2 | .gillhamInvalid => 3

/-- CPR_STATUS.REASON by number (R44). -/
def cprReasonNumber : CprReason → Nat
  | .ok => 0 | .parity => 1 | .stale => 2 | .nl => 3 | .ref => 4

/-- The field of `n` bits from bit `lo` up of what a register reads. -/
def bitsOf (s : State) (r : Reg) (lo n : Nat) : Nat := (readReg s r).toNat / 2 ^ lo % 2 ^ n

/-- A LO/HI pair reads the 64-bit value `d`: bits 31..0 in LO, bits 63..32 in HI (R15, R56). -/
def PairShows (s : State) (lo hi : Reg) (d : DWord) : Prop :=
  (readReg s lo).toNat = d.toNat % 2 ^ 32 ∧ (readReg s hi).toNat = d.toNat / 2 ^ 32

/-- Bit 31 - b of the register numbered `k` of four is `F{32k+b}` (R29, R30). -/
def FrameShows (s : State) (r : Fin 4 → Reg) (F : Frame) : Prop :=
  ∀ (k : Fin 4) (b : Nat), b < 32 → 32 * k.val + b ≤ 111 →
    (readReg s (r k)).getLsbD (31 - b) = F.getMsbD (32 * k.val + b)

/-- What the status, frame, CRC and general result registers show (R25 to R32). -/
structure ShowsShell (s : State) : Prop where
  busy : bitsOf s .status 0 1 = 1 ↔ ∃ p, s.cst = .busy p
  done : bitsOf s .status 1 1 = 1 ↔ s.done = true
  fault : bitsOf s .status 2 1 = 1 ↔ s.cst = .faulted
  lastop : bitsOf s .status 8 8 = s.lastop.toNat
  faultCode : bitsOf s .faultCode 0 4 = faultNumber s.faultCode
  faultCmd : readReg s .faultCmd = s.faultCmd
  frameLen : bitsOf s .frameLen 0 8 = s.frameLen.toNat
  frame : FrameShows s ![.frame0, .frame1, .frame2, .frame3] s.frame
  cframe : FrameShows s ![.cframe0, .cframe1, .cframe2, .cframe3] s.cframe
  syndrome : bitsOf s .crcInfo 0 24 = s.crcInfo.syndrome.toNat
  flip : bitsOf s .crcInfo 24 7 = s.crcInfo.flip.toNat
  pass : bitsOf s .crcInfo 31 1 = 1 ↔ s.crcInfo.pass = true
  res0 : readReg s .res0 = s.res0
  res1 : readReg s .res1 = s.res1

/-- What the registers of the MSG record show (R33 to R41). -/
structure ShowsMessage (s : State) : Prop where
  kind : bitsOf s .msgKind 0 2 = kindNumber s.msg.kind
  reason : bitsOf s .msgKind 4 3 = reasonNumber s.msg.reason
  icao : bitsOf s .msgIcao 0 24 = s.msg.icao.toNat
  tc : bitsOf s .msgTcdf 0 5 = s.msg.tc.toNat
  df : bitsOf s .msgTcdf 8 5 = s.msg.df.toNat
  ts : PairShows s .msgTsLo .msgTsHi s.msg.ts
  cat : bitsOf s .idCat 0 5 = s.msg.id.cat.toNat
  ca : bitsOf s .idCat 8 3 = s.msg.id.ca.toNat
  set : bitsOf s .idCat 12 2 = s.msg.id.set.toNat
  nameLen : bitsOf s .idNameLen 0 4 = s.msg.id.nameLen.toNat
  name : PairShows s .idName0 .idName1 s.msg.id.name
  ss : bitsOf s .posFlags 0 2 = s.msg.pos.ss.toNat
  nicsb : bitsOf s .posFlags 4 1 = s.msg.pos.nicsb.toNat
  t : bitsOf s .posFlags 8 1 = s.msg.pos.t.toNat
  f : bitsOf s .posFlags 12 1 = s.msg.pos.f.toNat
  altRaw : bitsOf s .posAltRaw 0 12 = s.msg.pos.altRaw.toNat
  alt : readReg s .posAlt = s.msg.pos.alt
  path : bitsOf s .posAltInfo 0 2 = pathNumber s.msg.pos.altInfo.path
  q : bitsOf s .posAltInfo 2 1 = s.msg.pos.altInfo.q.toNat
  n500 : bitsOf s .posAltInfo 8 8 = s.msg.pos.altInfo.n500.toNat
  n100 : bitsOf s .posAltInfo 16 3 = s.msg.pos.altInfo.n100.toNat
  n25 : bitsOf s .posAltInfo 20 11 = s.msg.pos.altInfo.n25.toNat
  latCpr : bitsOf s .posLatCpr 0 17 = s.msg.pos.latCpr.toNat
  lonCpr : bitsOf s .posLonCpr 0 17 = s.msg.pos.lonCpr.toNat
  sub : bitsOf s .velSub 0 3 = s.msg.vel.sub.toNat
  ew : readReg s .velEw = s.msg.vel.ew
  ns : readReg s .velNs = s.msg.vel.ns
  vr : readReg s .velVr = s.msg.vel.vr
  speed : PairShows s .velSpeedLo .velSpeedHi s.msg.vel.speed
  hdg : PairShows s .velHdgLo .velHdgHi s.msg.vel.hdg

/-- What the registers of one slot show (R42). -/
structure ShowsSlot (s : State) (f lat lon tsLo tsHi : Reg) (x : Slot) : Prop where
  f : bitsOf s f 0 1 = x.f.toNat
  lat : bitsOf s lat 0 17 = x.lat.toNat
  lon : bitsOf s lon 0 17 = x.lon.toNat
  ts : PairShows s tsLo tsHi x.ts

/-- What the slots, the reference, NL_LAT and the CPR result registers show (R42 to R45). -/
structure ShowsPosition (s : State) : Prop where
  slot0 : ShowsSlot s .slot0F .slot0Lat .slot0Lon .slot0TsLo .slot0TsHi s.slot0
  slot1 : ShowsSlot s .slot1F .slot1Lat .slot1Lon .slot1TsLo .slot1TsHi s.slot1
  refLat : PairShows s .refLatLo .refLatHi s.refLat
  refLon : PairShows s .refLonLo .refLonHi s.refLon
  nlLat : PairShows s .nlLatLo .nlLatHi s.nlLat
  valid : bitsOf s .cprStatus 0 1 = 1 ↔ s.cpr.valid = true
  reason : bitsOf s .cprStatus 4 3 = cprReasonNumber s.cpr.reason
  used : bitsOf s .cprStatus 8 1 = s.cpr.used.toNat
  nl : readReg s .cprNl = s.cpr.nl
  j : readReg s .cprJ = s.cpr.j
  m : readReg s .cprM = s.cpr.m
  lat : PairShows s .cprLatLo .cprLatHi s.cpr.lat
  lon : PairShows s .cprLonLo .cprLonHi s.cpr.lon

/-- The reserved mask of an opcode's format (R63, R64). -/
def maskOfOpcode (op : Nat) : Word :=
  if op = 0x01 then 0xFFC00000#32 else if op = 0x06 then 0xFFFFF800#32
  else if op = 0x07 then 0xFFF00000#32 else if op = 0x0A then 0xFFFFFE00#32 else 0xFFFFFF00#32

/-- The rejection record: MSG_KIND reads `r << 4`, every other MSG register reads 0 (R107). -/
def Rejected (r : Nat) (t : State) : Prop :=
  readReg t .msgKind = BitVec.ofNat 32 (16 * r) ∧ ∀ g ∈ msgRegs, g ≠ .msgKind → readReg t g = 0

/-- The 64 characters of the source's table (R113). -/
def nameTable : String := "?ABCDEFGHIJKLMNOPQRSTUVWXYZ????? ???????????????0123456789??????"

/-- The ASCII code of entry `c` of the table (R113). -/
def nameCode (c : Nat) : Nat := (nameTable.toList.getD c '?').toNat

/-- Reflected Gray to binary on three bits by shifts (R122). -/
def grayValue (g : Nat) : Nat := g ^^^ g / 2 ^^^ g / 4

/-- Bit `i` of an altitude field as a number (R123). -/
def altBit (a i : Nat) : Nat := a / 2 ^ i % 2

/-- `n500` from the bits of the field (R125). -/
def n500Of (a : Nat) : Nat :=
  64 * grayValue (2 * altBit a 11 + altBit a 9) + 8 * grayValue (4 * altBit a 6 + 2 * altBit a 3 + altBit a 1)
    + grayValue (4 * altBit a 10 + 2 * altBit a 8 + altBit a 7)

/-- `n100` from the bits of the field (R125). -/
def n100Of (a : Nat) : Nat := grayValue (4 * altBit a 5 + 2 * altBit a 2 + altBit a 0)

/-- The component a sign bit and a raw magnitude stand for (R142). -/
def componentOf (sign raw scale : Nat) : Int :=
  (if sign = 1 then -1 else 1) * (((raw : Int) - 1) * scale) * (if raw = 0 then 0 else 1)

/-- The 112 single-bit syndromes of R96. -/
def syndromeTable : List (BitVec 24) :=
  [0x3935EA, 0x1C9AF5, 0xF1B77E, 0x78DBBF, 0xC397DB, 0x9E31E9, 0xB0E2F0, 0x587178,
   0x2C38BC, 0x161C5E, 0x0B0E2F, 0xFA7D13, 0x82C48D, 0xBE9842, 0x5F4C21, 0xD05C14]
  ++ [0x682E0A, 0x341705, 0xE5F186, 0x72F8C3, 0xC68665, 0x9CB936, 0x4E5C9B, 0xD8D449,
   0x939020, 0x49C810, 0x24E408, 0x127204, 0x093902, 0x049C81, 0xFDB444, 0x7EDA22]
  ++ [0x3F6D11, 0xE04C8C, 0x702646, 0x381323, 0xE3F395, 0x8E03CE, 0x4701E7, 0xDC7AF7,
   0x91C77F, 0xB719BB, 0xA476D9, 0xADC168, 0x56E0B4, 0x2B705A, 0x15B82D, 0xF52612]
  ++ [0x7A9309, 0xC2B380, 0x6159C0, 0x30ACE0, 0x185670, 0x0C2B38, 0x06159C, 0x030ACE,
   0x018567, 0xFF38B7, 0x80665F, 0xBFC92B, 0xA01E91, 0xAFF54C, 0x57FAA6, 0x2BFD53]
  ++ [0xEA04AD, 0x8AF852, 0x457C29, 0xDD4410, 0x6EA208, 0x375104, 0x1BA882, 0x0DD441,
   0xF91024, 0x7C8812, 0x3E4409, 0xE0D800, 0x706C00, 0x383600, 0x1C1B00, 0x0E0D80]
  ++ [0x0706C0, 0x038360, 0x01C1B0, 0x00E0D8, 0x00706C, 0x003836, 0x001C1B, 0xFFF409,
   0x800000, 0x400000, 0x200000, 0x100000, 0x080000, 0x040000, 0x020000, 0x010000]
  ++ [0x008000, 0x004000, 0x002000, 0x001000, 0x000800, 0x000400, 0x000200, 0x000100,
   0x000080, 0x000040, 0x000020, 0x000010, 0x000008, 0x000004, 0x000002, 0x000001]

/-- The bounds `B_59`, `B_58`, ..., `B_2`, as the table of R162 gives their bits. -/
def zoneTable : List Nat :=
  [0x4024F0E19D3E251D, 0x402DA8067889CBED, 0x40322FAEF828A751, 0x403507866D05F6E0, 0x40378B880F707B5C,
   0x4039D44989387B4D, 0x403BF061756B1A26, 0x403DE94EAED92AF4, 0x403FC5A8276E3D93, 0x4040C51C91B7812A,
   0x40419D4FBD7E22EE, 0x40426CD506FA440C, 0x404334CA24AFAE13, 0x4043F616AB9A41DF, 0x4044B1796EB17123,
   0x40456791E74DDF0D, 0x404618E6FF9C74C4, 0x4046C5EC15A09137, 0x40476F04C08ECA22, 0x40481487B395284B]
  ++ [0x4048B6C0FBCE367F, 0x404955F3C428DFAE, 0x4049F25BBD841E7F, 0x404A8C2E40C13690, 0x404B239B3AB4590D,
   0x404BB8CDEDBEC4A7, 0x404C4BED91EDB82C, 0x404CDD1DDA58A0B6, 0x404D6C7F64E8373B, 0x404DFA30188580F4,
   0x404E864B74CDC944, 0x404F10EAD5BB5A9F, 0x404F9A25AD2B6CFA, 0x40501108D9DEE6AF, 0x40505461891909FC,
   0x40509726420D2AB4, 0x4050D95FBA3B36C5, 0x40511B160A43DF0F, 0x40515C50B672A1AB, 0x40519D16B441997B]
  ++ [0x4051DD6E6C7A4B74, 0x40521D5DB94B81BA, 0x40525CE9DF3E337D, 0x40529C177F4A9F80, 0x4052DAEA7F414BC2,
   0x40531965E3FD8F53, 0x4053578B95D91AE8, 0x4053955C027EB7D0, 0x4053D2D5853CCAC5, 0x40540FF36B54E0AB,
   0x40544CAC40C8D969, 0x405488EEB6311C24, 0x4054C49B8E990D6B, 0x4054FF7898B812C5, 0x40553910FD1A6F97,
   0x40557058BD3A9B97, 0x4055A243806D99EC, 0x4055C00000000000]

/-- `n` is the zone count of the latitude with pattern `lat` (R162): 59 at zero, 0 above 87.0 (infinities and NaN
among them), else the `n` in 2 to 59 that counts the bounds, by the magnitude bits. -/
def IsZoneCount (lat : DWord) (n : Nat) : Prop :=
  let a := lat.toNat % 2 ^ 63
  (a = 0 → n = 59) ∧ (0x4055C00000000000 < a → n = 0) ∧
    (0 < a → a ≤ 0x4055C00000000000 →
      2 ≤ n ∧ n ≤ 59 ∧ ∀ k, 2 ≤ k → k ≤ 59 → (k ≤ n ↔ a ≤ zoneTable.getD (59 - k) 0))

/-- `x` is a finite binary64 value (it has a pattern) and none is nearer to the real `r` (R15). -/
def NearestTo (x : F64) (r : ℝ) : Prop :=
  isFinite x = true ∧ (∃ b : DWord, ofBits b = x) ∧ ∀ b : DWord, isFinite (ofBits b) = true →
    |((value x : ℚ) : ℝ) - r| ≤ |((value (ofBits b) : ℚ) : ℝ) - r|

/-- The heading of R144 as an exact real: the angle of the point (NS, EW) in degrees, plus 360 if negative. -/
noncomputable def exactHeading (ew ns : Int) : ℝ :=
  let h : ℝ := Complex.arg (⟨(ns : ℝ), (ew : ℝ)⟩ : ℂ) * 180 / Real.pi
  if h < 0 then h + 360 else h

/-- NOW's samples lie between `low` and the port's value (R218). -/
def samplesWithin (low : Nat) (s : State) : Prop :=
  low ≤ s.now.toNat ∧
    ∀ p, s.cst = .busy p → ∀ t, p.sampled = some t → low ≤ t.toNat ∧ t.toNat ≤ s.now.toNat

end Sys2Proof.Claims

open Sys2Proof Sys2Proof.Machine Sys2Proof.Claims

/-- R61, R63, R68: no bit of an encoding is dropped. -/
def Obligations.DecodeOfEncode : Prop :=
  ∀ i : Instr, i.wellFormed = true → decode (encode i) = .ok i

/-- R66: a word is one command with legal operands, and then the only word of that command, or its write to CMD
of an IDLE block raises a fault. -/
def Obligations.EveryWordIsCommandOrFault : Prop :=
  ∀ (w : Word) (s : State), s.cst = .idle →
    (∃ i, decode w = .ok i ∧ i.wellFormed = true ∧ encode i = w ∧ ∀ v, decode v = .ok i → v = w) ∨
      ((hostCommand w s).cst = .faulted ∧ (hostCommand w s).faultCode ≠ .noFault)

/-- R63, R68: words written out from the spec's encodings decode to their commands. -/
def Obligations.SampleWordsDecode : Prop :=
  decode 0x00000000#32 = .ok .nop ∧ decode 0x00028001#32 = .ok (.extract 0 5) ∧
  decode 0x00203001#32 = .ok (.extract 48 64) ∧ decode 0x00000003#32 = .ok .crcCorrect ∧
  decode 0x00000004#32 = .ok .decode ∧ decode 0x00000406#32 = .ok (.gray3 4) ∧
  decode 0x0000D407#32 = .ok (.alt12 0x0D4) ∧ decode 0x0000010A#32 = .ok (.posToSlot 1) ∧
  decode 0x0000000C#32 = .ok .cprResolve

/-- R64, R203: a host write to CMD, through a step, by the bits of the word. The fault entered is that of R205, and
the acceptance writes PEND, LASTOP, DONE and CST. The model's choices in it: the snapshot holds every register any
command reads, whichever command it is (log 10); the schedule (log 1) and the host's answer (log 9). -/
def Obligations.CommandWriteChecks : Prop :=
  ∀ (s : State) (w : Word) (rest : List Event),
    s.resetAsserted = false → s.events = .write (baseAddress s) 4 w :: rest →
    let u : State := { s with events := rest, response := .nothing }
    let op := w.toNat % 256
    let start := w.toNat / 256 % 128
    let len := w.toNat / 32768 % 128
    let faultOf : FaultCode → State := fun c =>
      { u with faultCode := c, faultCmd := w, done := false, cst := .faulted }
    let snap : Snapshot :=
      { frameLen := s.frameLen, frame := s.frame, slot0 := s.slot0, slot1 := s.slot1, refLon := s.refLon,
        nlLat := s.nlLat, msg := s.msg }
    step s = .next (match s.cst with
      | .faulted => u
      | .busy _ => faultOf .overrun
      | .idle =>
        if 0x0C < op then faultOf .illegalOpcode
        else if w &&& maskOfOpcode op ≠ 0 then faultOf .reservedBits
        else if op = 0x01 ∧ (64 < len ∨ 112 < start + len) then faultOf .extractRange
        else if op = 0x0A ∧ s.msg.kind ≠ .airbornePosition then faultOf .slotSource
        else { u with cst := .busy ⟨w, snap, none⟩, lastop := w.extractLsb' 0 8, done := false })

/-- R205, with the numbers of R26 and R202: fault entry records code and word, clears DONE and BUSY, discards a
pending command, keeps LASTOP and every other register. -/
def Obligations.FaultEntry : Prop :=
  ∀ (code : FaultCode) (w : Word) (s : State),
    (readReg (raiseFault code w s) .faultCode).toNat = faultNumber code ∧
    readReg (raiseFault code w s) .faultCmd = w ∧
    readReg (raiseFault code w s) .status = 0#16 ++ s.lastop ++ 0x04#8 ∧
    (raiseFault code w s).cst = .faulted ∧
    SameRegsExcept [.status, .faultCode, .faultCmd] s (raiseFault code w s) ∧
    SameOutside s (raiseFault code w s)

/-- R64, R47: acceptance latches the word and the registers (all of them for every command, log 10), sets BUSY and
LASTOP, clears DONE, and changes no other register. -/
def Obligations.AcceptanceLatchesInputs : Prop :=
  ∀ (w : Word) (s : State),
    (∃ p, (acceptWord w s).cst = .busy p ∧ p.word = w ∧ p.sampled = none ∧
      p.snap = { frameLen := s.frameLen, frame := s.frame, slot0 := s.slot0, slot1 := s.slot1,
                 refLon := s.refLon, nlLat := s.nlLat, msg := s.msg }) ∧
    readReg (acceptWord w s) .status = 0#16 ++ w.extractLsb' 0 8 ++ 0x01#8 ∧
    SameRegsExcept [.status] s (acceptWord w s) ∧ SameOutside s (acceptWord w s)

/-- R206, R207: in FAULTED every step that is not a reset stays FAULTED, keeps the first fault, and changes no
status or result register. -/
def Obligations.FaultedUntilReset : Prop :=
  ∀ s t : State, s.cst = .faulted → step s = .next t →
    (∃ rest, s.events = .assertReset :: rest) ∨
      (t.cst = .faulted ∧ t.faultCode = s.faultCode ∧ t.faultCmd = s.faultCmd ∧
        ∀ r : Reg, writableMask r = none → readReg t r = readReg s r)

/-- R230, R209: a platform reset from any state gives every register its reset value. The clauses on NOW, BASE and
the schedule are the model's (logs 1, 3, 4, 7). -/
def Obligations.ResetValuesFromAnyState : Prop :=
  ∀ (s : State) (rest : List Event), s.events = .assertReset :: rest →
    ∃ t, step s = .next t ∧ t.cst = .idle ∧ readReg t .crcInfo = 0x7F000000#32 ∧
      (∀ r : Reg, r ≠ .crcInfo → readReg t r = 0) ∧ t.now = s.now ∧ t.basePage = s.basePage ∧
      t.events = rest

/-- R230: the registers right after reset. -/
def Obligations.ResetStateReads : Prop :=
  State.reset.cst = .idle ∧ readReg State.reset .crcInfo = 0x7F000000#32 ∧
    ∀ r : Reg, r ≠ .crcInfo → readReg State.reset r = 0

/-- R51, R58: a 32-bit read of a register gives its value and changes nothing. Every register of the map R24 stands at
its offset there, and its bits are the state's fields in the places of R25 to R45, frames by R29 and R30, 64-bit
values by R56. -/
def Obligations.ReadReturnsRegister : Prop :=
  ((∀ e ∈ registerMap, regOffset e.2 = e.1) ∧ ∀ r : Reg, r ∈ registerMap.map (·.2)) ∧
  (∀ s : State, ShowsShell s ∧ ShowsMessage s ∧ ShowsPosition s) ∧
  ∀ (s : State) (r : Reg) (rest : List Event), s.resetAsserted = false →
    s.events = .read (baseAddress s + regOffset r) 4 :: rest →
    step s = .next { s with events := rest, response := .data (readReg s r) }

/-- R53: reads of reserved offsets give 0, writes to them change nothing; reserved bits of every register read 0,
and of a written register they are ignored. -/
def Obligations.ReservedOffsets : Prop :=
  (∀ (s : State) (r : Reg), readReg s r &&& ~~~(definedBits r) = 0) ∧
  (∀ (s : State) (r : Reg) (m v : Word), writableMask r = some m → writeReg s r v = writeReg s r (v &&& m)) ∧
  ∀ (s : State) (k : Nat) (v : Word) (rest : List Event), s.resetAsserted = false → k < 128 →
    (∀ r : Reg, regOffset r ≠ 4 * k) →
    (s.events = .read (baseAddress s + 4 * k) 4 :: rest →
      step s = .next { s with events := rest, response := .data 0 }) ∧
    (s.events = .write (baseAddress s + 4 * k) 4 v :: rest →
      step s = .next { s with events := rest, response := .nothing })

/-- R51, R58, with the masks of R28, R29, R42, R43: a host write to an input register stores its writable bits
and changes nothing else. -/
def Obligations.InputWriteStoresWritableBits : Prop :=
  ∀ (s : State) (r : Reg) (m v : Word) (rest : List Event), s.resetAsserted = false →
    writableMask r = some m → s.events = .write (baseAddress s + regOffset r) 4 v :: rest →
    ∃ t, step s = .next t ∧ readReg t r = v &&& m ∧ SameRegsExcept [r] s t ∧ t.cst = s.cst ∧
      t.now = s.now ∧ t.basePage = s.basePage ∧ t.events = rest ∧ t.response = .nothing

/-- R54: a write to a read-only register is ignored and raises nothing; a read of CMD gives 0. -/
def Obligations.ReadOnlyWriteIgnored : Prop :=
  (∀ s : State, readReg s .cmd = 0) ∧
  ∀ (s : State) (r : Reg) (v : Word) (rest : List Event), s.resetAsserted = false → r ≠ .cmd →
    writableMask r = none → s.events = .write (baseAddress s + regOffset r) 4 v :: rest →
    step s = .next { s with events := rest, response := .nothing }

/-- R51, R52, R204: exactly the 32-bit accesses at the 128 aligned offsets are answered; every other access is a
fault of the host's step. -/
def Obligations.BusErrorsExactly : Prop :=
  ∀ (s : State) (addr size : Nat) (v : Word) (rest : List Event) (e : Event), s.resetAsserted = false →
    (e = .read addr size ∨ e = .write addr size v) → s.events = e :: rest →
    ((step s = .fault .busError ↔ ¬(size = 4 ∧ ∃ k, k < 128 ∧ addr = baseAddress s + 4 * k)) ∧
      ((size = 4 ∧ ∃ k, k < 128 ∧ addr = baseAddress s + 4 * k) → ∃ t, step s = .next t))

/-- R65, R215: when the pending word is a command and its completion is the next move of the schedule (or no move is
left, log 2), the step is exec of that command. -/
def Obligations.StepRunsPendingCommand : Prop :=
  ∀ (s : State) (p : Pending) (i : Instr), s.cst = .busy p → decode p.word = .ok i →
    (s.events = [] → step s = exec i s) ∧
    (∀ rest, s.events = .complete :: rest → step s = exec i { s with events := rest })

/-- The model's guards. No completion is enabled outside BUSY (R215), so exec refuses there (log 11), and the
schedule's completion move does nothing (log 8). A completion whose operands acceptance would have refused, which no
run reaches, enters the fault acceptance raises for them (log 12; the spec raises faults at acceptance only). A host
access while reset is asserted has no meaning (log 7; R230, 93 S7). -/
def Obligations.ModelGuards : Prop :=
  (∀ (i : Instr) (s : State), (s.cst = .idle ∨ s.cst = .faulted) →
    exec i s = .refused .noPendingCommand ∧
      ∀ rest, s.events = .complete :: rest → step s = .next { s with events := rest }) ∧
  (∀ (s : State) (p : Pending), s.cst = .busy p →
    (∀ start len, 64 < len.toNat ∨ 112 < start.toNat + len.toNat →
      exec (.extract start len) s = .next (raiseFault .extractRange p.word s)) ∧
    (∀ slot, p.snap.msg.kind ≠ .airbornePosition →
      exec (.posToSlot slot) s = .next (raiseFault .slotSource p.word s))) ∧
  (∀ (s : State) (addr size : Nat) (v : Word) (rest : List Event), s.resetAsserted = true →
    (s.events = .read addr size :: rest ∨ s.events = .write addr size v :: rest) →
    step s = .refused .accessDuringReset)

/-- R65, R233, and "Results written" of every command's rule: every command whose operands are legal completes
and changes only its result registers and STATUS. -/
def Obligations.CommandsCompleteWithFrame : Prop :=
  ∀ (i : Instr) (s : State) (p : Pending), s.cst = .busy p → i.wellFormed = true →
    (∀ slot, i = .posToSlot slot → p.snap.msg.kind = .airbornePosition) →
    ∃ t, exec i s = .next t ∧ CompletesWriting (writtenRegs i) s t

/-- R65, R232: in a legal state a pending command completes: "No accepted command can fault". -/
def Obligations.AcceptedCommandsComplete : Prop :=
  ∀ (s : State) (p : Pending), legalState s = true → s.cst = .busy p → s.events = [] →
    ∃ t, step s = .next t ∧ t.cst = .idle ∧ t.done = true ∧ t.faultCode = .noFault

/-- R47, R18: a host write to any register but CMD while a command is BUSY does not change what the command leaves in
the read-only registers, nor, when it completes, in its own result registers (the slots of POS_TO_SLOT among them). -/
def Obligations.RunningCommandIgnoresInputWrites : Prop :=
  ∀ (i : Instr) (s t : State) (r : Reg) (v : Word), r ≠ .cmd → exec i s = .next t →
    ∃ t', exec i (writeReg s r v) = .next t' ∧
      ∀ g : Reg, writableMask g = none ∨ (t.cst = .idle ∧ g ∈ writtenRegs i) → readReg t' g = readReg t g

/-- The legal states are closed under every step (R25, R26, R31, R33, R44, R45, R47, R107, R230). The clauses on the
snapshot's MSG record and on a reset held asserted are the model's (logs 7, 10). -/
def Obligations.StepsKeepLegalState : Prop :=
  ∀ s t : State, legalState s = true → step s = .next t → legalState t = true

/-- The state after reset is legal. -/
def Obligations.ResetIsLegal : Prop := legalState State.reset = true

/-- R218: while the platform keeps NOW non-decreasing, every sample lies between the value NOW had at any earlier
moment (acceptance among them) and its value at completion, and a message a step constructs is stamped inside the
same bounds. -/
def Obligations.SamplesStayWithinNow : Prop :=
  ∀ (low : Nat) (s t : State), nowMonotone s.now s.events = true → samplesWithin low s → step s = .next t →
    samplesWithin low t ∧ nowMonotone t.now t.events = true ∧
      (t.msg ≠ s.msg → t.msg.kind ≠ .noMessage → low ≤ t.msg.ts.toNat ∧ t.msg.ts.toNat ≤ t.now.toNat)

/-- R48, R108: the block samples NOW once; the first sample of a command is the one it stamps. -/
def Obligations.SampleTakenOnce : Prop :=
  ∀ (s : State) (p : Pending) (rest : List Event), s.cst = .busy p → s.events = .sample :: rest →
    ∃ t, step s = .next t ∧
      t.cst = .busy { p with sampled := some (p.sampled.getD s.now) } ∧
      (∀ r : Reg, readReg t r = readReg s r) ∧ t.now = s.now

/-- R11, R218: no step changes BASE, and only the platform's own move changes NOW. -/
def Obligations.OnlyPlatformDrivesNow : Prop :=
  ∀ s t : State, step s = .next t →
    t.basePage = s.basePage ∧
      (t.now = s.now ∨ ∃ ms rest, s.events = .driveNow ms :: rest ∧ t.now = ms)

/-- R22: what a command writes depends only on its snapshot and its sample of NOW: two blocks with the same
pending command and the same NOW end with the same result registers. (A DECODE rejected for its length writes no
CRC result, R102.) -/
def Obligations.ResultsDependOnSnapshotOnly : Prop :=
  ∀ (i : Instr) (s s' t t' : State) (p : Pending), s.cst = .busy p → s'.cst = .busy p → s'.now = s.now →
    i.wellFormed = true → (∀ slot, i = .posToSlot slot → p.snap.msg.kind = .airbornePosition) →
    exec i s = .next t → exec i s' = .next t' →
    ∀ r ∈ writtenRegs i, (r ∈ crcRegs → i = .decode → p.snap.frameLen = 112#8) →
      readReg t' r = readReg t r

/-- The model's placement of a command (log 5): the step after withFetchWord is the completion of that word's
command, and it ends IDLE with DONE = 1. -/
def Obligations.PlacedCommandRunsNext : Prop :=
  ∀ (s : State) (w : Nat) (i : Instr), decodeTableWord 32 w = some i →
    ∃ (u t : State) (p : Pending), u.cst = .busy p ∧ p.word = BitVec.ofNat 32 w ∧ u.frame = s.frame ∧
      p.snap.frame = s.frame ∧ p.snap.nlLat = s.nlLat ∧ p.snap.frameLen = s.frameLen ∧
      step (s.withFetchWord 32 w) = exec i u ∧ exec i u = .next t ∧ t.cst = .idle ∧ t.done = true ∧
      t.events = s.events

/-- R82: RES1:RES0 is the field as a number. -/
def Obligations.ExtractReadsField : Prop :=
  ∀ (s : State) (p : Pending) (start len : BitVec 7), s.cst = .busy p → len.toNat ≤ 64 →
    start.toNat + len.toNat ≤ 112 →
    ∃ t, exec (.extract start len) s = .next t ∧
      (readReg t .res1 ++ readReg t .res0).toNat = fieldOf p.snap.frame start.toNat len.toNat ∧
      CompletesWriting resRegs s t

/-- R92: CRC_CHECK. -/
def Obligations.CrcCheckResult : Prop :=
  ∀ (s : State) (p : Pending), s.cst = .busy p →
    ∃ t, exec .crcCheck s = .next t ∧ t.cframe = p.snap.frame ∧
      readReg t .crcInfo =
        (if crc24 p.snap.frame = 0 then 1#1 else 0#1) ++ 127#7 ++ crc24 p.snap.frame ∧
      CompletesWriting crcRegs s t

/-- R93, R94: the three outcomes of CRC_CORRECT; the first passing flip in ascending order is taken. -/
def Obligations.CrcCorrectThreeOutcomes : Prop :=
  ∀ (s : State) (p : Pending), s.cst = .busy p →
    let F := p.snap.frame
    ∃ t, exec .crcCorrect s = .next t ∧ CompletesWriting crcRegs s t ∧
      ((crc24 F = 0 ∧ t.cframe = F ∧ readReg t .crcInfo = 0xFF000000#32) ∨
       (crc24 F ≠ 0 ∧ ∃ i, i < 112 ∧ crc24 (F ^^^ unitFrame i) = 0 ∧
          (∀ k, k < i → crc24 (F ^^^ unitFrame k) ≠ 0) ∧ t.cframe = F ^^^ unitFrame i ∧
          readReg t .crcInfo = 1#1 ++ BitVec.ofNat 7 i ++ crc24 F) ∨
       (crc24 F ≠ 0 ∧ (∀ k, k < 112 → crc24 (F ^^^ unitFrame k) ≠ 0) ∧ t.cframe = F ∧
          readReg t .crcInfo = 0#1 ++ 127#7 ++ crc24 F))

/-- R95: CRC24 is linear; the syndrome of a passing frame with some bits inverted is the XOR of the syndromes of
those bits. -/
def Obligations.CrcIsLinear : Prop :=
  crc24 0 = 0 ∧ (∀ F E : Frame, crc24 (F ^^^ E) = crc24 F ^^^ crc24 E) ∧
  ∀ (F : Frame) (I : List Nat), crc24 F = 0 → (∀ i ∈ I, i < 112) →
    crc24 (I.foldl (fun G i => G ^^^ unitFrame i) F) = I.foldl (fun acc i => acc ^^^ crc24 (unitFrame i)) 0

/-- R96: the 112 single-bit syndromes are those of the table, all distinct and none 0, and the parity bits' are
the powers of two. -/
def Obligations.SingleBitSyndromes : Prop :=
  (∀ i, i < 112 → crc24 (unitFrame i) = syndromeTable.getD i 0) ∧ syndromeTable.Nodup ∧
    (0 : BitVec 24) ∉ syndromeTable ∧
    ∀ i, 88 ≤ i → i < 112 → crc24 (unitFrame i) = BitVec.ofNat 24 (2 ^ (111 - i))

/-- R95, R96: the syndrome of any frame is the XOR of the table's entries at its set bits. -/
def Obligations.SyndromeIsSumOfTable : Prop :=
  ∀ F : Frame, crc24 F =
    (List.range 112).foldl (fun acc i => if F.getMsbD i then acc ^^^ syndromeTable.getD i 0 else acc) 0

/-- R96: every frame at Hamming distance 1 from a passing frame is corrected back to it. -/
def Obligations.SingleErrorsCorrectedBack : Prop :=
  ∀ (F : Frame) (i : Nat) (s : State) (p : Pending), crc24 F = 0 → i < 112 → s.cst = .busy p →
    p.snap.frame = F ^^^ unitFrame i →
    ∃ t, exec .crcCorrect s = .next t ∧ t.cframe = F ∧
      t.crcInfo = ⟨true, BitVec.ofNat 7 i, syndromeTable.getD i 0⟩ ∧ CompletesWriting crcRegs s t

/-- R97: two or three inverted bits of a passing frame are uncorrectable. -/
def Obligations.DoubleAndTripleErrorsUncorrectable : Prop :=
  ∀ (F E : Frame) (s : State) (p : Pending), crc24 F = 0 → s.cst = .busy p →
    ((∃ i j, i < j ∧ j < 112 ∧ E = unitFrame i ^^^ unitFrame j) ∨
      ∃ i j k, i < j ∧ j < k ∧ k < 112 ∧ E = unitFrame i ^^^ unitFrame j ^^^ unitFrame k) →
    p.snap.frame = F ^^^ E →
    ∃ t, exec .crcCorrect s = .next t ∧ t.cframe = F ^^^ E ∧ t.crcInfo.pass = false ∧
      t.crcInfo.flip = 127#7 ∧ t.crcInfo.syndrome ≠ 0 ∧ t.crcInfo.syndrome ∉ syndromeTable ∧
      CompletesWriting crcRegs s t

/-- R101 to R108: the outcome of DECODE, check by check. -/
def Obligations.DecodeChecksInOrder : Prop :=
  ∀ (s : State) (p : Pending), s.cst = .busy p →
    let CF := (crcFix p.snap.frame).frame
    let tc := fieldOf CF 32 5
    ∃ t, exec .decode s = .next t ∧
      (if p.snap.frameLen ≠ 112#8 then
        Rejected 1 t ∧ CompletesWriting msgRegs s t
       else
        CompletesWriting (msgRegs ++ crcRegs) s t ∧ t.cframe = CF ∧
        t.crcInfo = ⟨(crcFix p.snap.frame).pass, (crcFix p.snap.frame).flip, crc24 p.snap.frame⟩ ∧
        (if (crcFix p.snap.frame).pass = false then Rejected 2 t
         else if fieldOf CF 0 5 ≠ 17 then Rejected 3 t
         else if tc = 0 ∨ (5 ≤ tc ∧ tc ≤ 8) ∨ 20 ≤ tc then Rejected 4 t
         else t.msg =
          makeMsg (if tc ≤ 4 then .identification else if tc ≤ 18 then .airbornePosition else .velocity) CF
            (p.sampled.getD s.now)))

/-- R109: a frame that passes the CRC is never rejected for it. -/
def Obligations.PassingFrameNeverRejectedForCrc : Prop :=
  ∀ (s : State) (p : Pending), s.cst = .busy p → p.snap.frameLen = 112#8 → crc24 p.snap.frame = 0 →
    ∃ t, exec .decode s = .next t ∧ t.msg.reason ≠ .crc ∧ t.crcInfo.pass = true

/-- R109: flipping one bit of a passing frame gives the same message but for the timestamp, and the same CFRAME;
CRC_INFO tells the flipped bit. -/
def Obligations.DecodeUndoesOneFlip : Prop :=
  ∀ (F : Frame) (i : Nat) (s s' : State) (p p' : Pending), crc24 F = 0 → i < 112 →
    s.cst = .busy p → s'.cst = .busy p' → p.snap.frameLen = 112#8 → p'.snap.frameLen = 112#8 →
    p.snap.frame = F → p'.snap.frame = F ^^^ unitFrame i →
    ∃ t t', exec .decode s = .next t ∧ exec .decode s' = .next t' ∧
      { t'.msg with ts := 0 } = { t.msg with ts := 0 } ∧ t.cframe = F ∧ t'.cframe = F ∧
      t'.crcInfo = ⟨true, BitVec.ofNat 7 i, syndromeTable.getD i 0⟩

/-- R109: a successful DECODE writes the record the decoder its Type Code selects writes for the corrected frame,
apart from MSG_TS. -/
def Obligations.DecodeAgreesWithItsDecoder : Prop :=
  ∀ (s s' t : State) (p' : Pending) (i : Instr), exec .decode s = .next t → s'.cst = .busy p' →
    p'.snap.frame = t.cframe →
    ((t.msg.kind = .identification ∧ i = .decId) ∨ (t.msg.kind = .airbornePosition ∧ i = .decPos) ∨
      (t.msg.kind = .velocity ∧ i = .decVel)) →
    ∃ t', exec i s' = .next t' ∧ { t'.msg with ts := 0 } = { t.msg with ts := 0 }

/-- R105, R108, with the numbers of R33: the header of the record DEC_ID, DEC_POS and DEC_VEL write; no length, CRC,
DF or TC check. -/
def Obligations.DecodersWriteHeader : Prop :=
  ∀ (s : State) (p : Pending) (i : Instr) (k : MsgKind) (n : Nat), s.cst = .busy p →
    ((i = .decId ∧ k = .identification ∧ n = 1) ∨ (i = .decPos ∧ k = .airbornePosition ∧ n = 2) ∨
      (i = .decVel ∧ k = .velocity ∧ n = 3)) →
    ∃ t, exec i s = .next t ∧ CompletesWriting msgRegs s t ∧
      (readReg t .msgKind).toNat = n ∧ t.msg.kind = k ∧
      (readReg t .msgIcao).toNat = fieldOf p.snap.frame 8 24 ∧
      (readReg t .msgTcdf).toNat = fieldOf p.snap.frame 0 5 * 256 + fieldOf p.snap.frame 32 5 ∧
      readReg t .msgTsHi ++ readReg t .msgTsLo = p.sampled.getD s.now ∧
      (k ≠ .identification → t.msg.id = IdRecord.zero) ∧
      (k ≠ .airbornePosition → t.msg.pos = PosRecord.zero) ∧ (k ≠ .velocity → t.msg.vel = VelRecord.zero)

/-- R111 to R114: category and name. -/
def Obligations.DecIdFields : Prop :=
  ∀ (s : State) (p : Pending), s.cst = .busy p →
    let X := p.snap.frame
    let tc := fieldOf X 32 5
    let set := if tc = 2 then 1 else if tc = 3 then 2 else if tc = 4 then 3 else 0
    let ch := fun i => nameCode (fieldOf X (40 + 6 * i) 6)
    ∃ t, exec .decId s = .next t ∧ CompletesWriting msgRegs s t ∧
      (readReg t .idCat).toNat = set * 4096 + fieldOf X 37 3 * 256 + (8 * set + fieldOf X 37 3) ∧
      ∃ len, len ≤ 8 ∧ (readReg t .idNameLen).toNat = len ∧ (0 < len → ch (len - 1) ≠ 0x20) ∧
        (∀ i, len ≤ i → i < 8 → ch i = 0x20) ∧
        ∀ i, i < 8 →
          (readReg t .idName1 ++ readReg t .idName0).toNat / 256 ^ i % 256 = if i < len then ch i else 0

/-- R120, R122: GRAY3 by the table. -/
def Obligations.Gray3Table : Prop :=
  ∀ (s : State) (p : Pending) (g : BitVec 3), s.cst = .busy p →
    ∃ t, exec (.gray3 g) s = .next t ∧
      (readReg t .res0).toNat = [0, 1, 3, 2, 7, 6, 4, 5].getD g.toNat 0 ∧ readReg t .res1 = 0 ∧
      CompletesWriting resRegs s t

/-- R121, R123, R124: the 25 ft path of ALT12. -/
def Obligations.Alt12BinaryPath : Prop :=
  ∀ (s : State) (p : Pending) (a : BitVec 12), s.cst = .busy p → altBit a.toNat 4 = 1 →
    let N := a.toNat / 32 * 16 + a.toNat % 16
    ∃ t, exec (.alt12 a) s = .next t ∧ (readReg t .res0).toInt = (N : Int) * 25 - 1000 ∧
      (readReg t .res1).toNat = N * 2 ^ 20 + 4 ∧ CompletesWriting resRegs s t

/-- R121, R124 to R126: the Gillham path of ALT12. -/
def Obligations.Alt12GillhamPath : Prop :=
  ∀ (s : State) (p : Pending) (a : BitVec 12), s.cst = .busy p → altBit a.toNat 4 = 0 →
    let n5 := n500Of a.toNat
    let n1 := n100Of a.toNat
    ∃ t, exec (.alt12 a) s = .next t ∧ CompletesWriting resRegs s t ∧
      (if n5 = 0 ∧ n1 = 0 then readReg t .res0 = 0 ∧ (readReg t .res1).toNat = 2
       else if n1 = 0 ∨ n1 = 7 then
        readReg t .res0 = 0 ∧ (readReg t .res1).toNat = n1 * 2 ^ 16 + n5 * 256 + 3
       else
        (readReg t .res0).toInt = (n5 : Int) * 500 - 1200 + [0, 0, 100, 200, 300, -200, -100].getD n1 0 ∧
        (readReg t .res1).toNat = n1 * 2 ^ 16 + n5 * 256 + 1 ∧
        -1400 ≤ (readReg t .res0).toInt ∧ (readReg t .res0).toInt ≤ 126600 ∧
        (readReg t .res0).toInt % 100 = 0)

/-- R127, R128: the position registers; the altitude registers are what ALT12 of the raw field gives. -/
def Obligations.DecPosFields : Prop :=
  ∀ (s s' t' : State) (p p' : Pending), s.cst = .busy p → s'.cst = .busy p' →
    let X := p.snap.frame
    exec (.alt12 (BitVec.ofNat 12 (fieldOf X 40 12))) s' = .next t' →
    ∃ t, exec .decPos s = .next t ∧ CompletesWriting msgRegs s t ∧
      (readReg t .posFlags).toNat =
        fieldOf X 53 1 * 4096 + fieldOf X 52 1 * 256 + fieldOf X 39 1 * 16 + fieldOf X 37 2 ∧
      (readReg t .posAltRaw).toNat = fieldOf X 40 12 ∧ (readReg t .posLatCpr).toNat = fieldOf X 54 17 ∧
      (readReg t .posLonCpr).toNat = fieldOf X 71 17 ∧ readReg t .posAlt = readReg t' .res0 ∧
      readReg t .posAltInfo = readReg t' .res1

/-- R140 to R142, R145: the components, in their ranges; other subtypes give zeros. -/
def Obligations.DecVelComponents : Prop :=
  ∀ (s : State) (p : Pending), s.cst = .busy p →
    let X := p.snap.frame
    let st := fieldOf X 37 3
    ∃ t, exec .decVel s = .next t ∧ CompletesWriting msgRegs s t ∧ readReg t .msgKind = 3 ∧
      (readReg t .velSub).toNat = st ∧
      (if st = 1 ∨ st = 2 then
        (readReg t .velEw).toInt = componentOf (fieldOf X 45 1) (fieldOf X 46 10) 1 ∧
        (readReg t .velNs).toInt = componentOf (fieldOf X 56 1) (fieldOf X 57 10) 1 ∧
        (readReg t .velVr).toInt = componentOf (fieldOf X 68 1) (fieldOf X 69 9) 64 ∧
        -1022 ≤ (readReg t .velEw).toInt ∧ (readReg t .velEw).toInt ≤ 1022 ∧
        -1022 ≤ (readReg t .velNs).toInt ∧ (readReg t .velNs).toInt ≤ 1022 ∧
        -32640 ≤ (readReg t .velVr).toInt ∧ (readReg t .velVr).toInt ≤ 32640 ∧
        (readReg t .velVr).toInt % 64 = 0
       else
        ∀ r ∈ [Reg.velEw, .velNs, .velVr, .velSpeedLo, .velSpeedHi, .velHdgLo, .velHdgHi], readReg t r = 0)

/-- R141, R143, R144: VEL_SPEED and VEL_HDG hold SPEED and HEADING of the stored components. -/
def Obligations.DecVelSpeedAndHeading : Prop :=
  ∀ (s : State) (p : Pending), s.cst = .busy p →
    (fieldOf p.snap.frame 37 3 = 1 ∨ fieldOf p.snap.frame 37 3 = 2) →
    ∃ t, exec .decVel s = .next t ∧
      ofBits (readReg t .velSpeedHi ++ readReg t .velSpeedLo) =
        speedF (readReg t .velEw).toInt (readReg t .velNs).toInt ∧
      ofBits (readReg t .velHdgHi ++ readReg t .velHdgLo) =
        headingF (readReg t .velEw).toInt (readReg t .velNs).toInt

/-- R143: the speed is the binary64 value nearest to the Euclidean norm, +0.0 for no motion, and within the
spec's bound. -/
def Obligations.SpeedCorrectlyRounded : Prop :=
  ∀ ew ns : Int, |ew| ≤ 1022 → |ns| ≤ 1022 →
    ew * ew + ns * ns ≤ 2088968 ∧ NearestTo (speedF ew ns) (Real.sqrt ((ew : ℝ) ^ 2 + (ns : ℝ) ^ 2)) ∧
    (ew = 0 → ns = 0 → speedF ew ns = .fin false 0 (-1074)) ∧
    0 ≤ value (speedF ew ns) ∧ value (speedF ew ns) ≤ value (ofBits 0x4096954E174BFC2F#64)

/-- R144: the rational enclosure the model rounds (log 14) holds the exact angle. -/
def Obligations.HeadingEnclosureHoldsAngle : Prop :=
  ∀ ew ns : Int, ¬(ew = 0 ∧ ns = 0) →
    (((headingEnclosure ew ns).lo : ℚ) : ℝ) ≤ exactHeading ew ns ∧
      exactHeading ew ns ≤ (((headingEnclosure ew ns).hi : ℚ) : ℝ)

/-- R144: where both ends of the enclosure (log 14) round to one value, the heading is the binary64 value nearest to
the exact angle. -/
def Obligations.HeadingNearestWhenDecided : Prop :=
  ∀ ew ns : Int, |ew| ≤ 1022 → |ns| ≤ 1022 → ¬(ew = 0 ∧ ns = 0) →
    rn (headingEnclosure ew ns).lo = rn (headingEnclosure ew ns).hi →
    NearestTo (headingF ew ns) (exactHeading ew ns)

/-- R144: the heading lies in [0, 360), and is +0.0 for no motion. -/
def Obligations.HeadingInRange : Prop :=
  ∀ ew ns : Int, |ew| ≤ 1022 → |ns| ≤ 1022 →
    isFinite (headingF ew ns) = true ∧ 0 ≤ value (headingF ew ns) ∧ value (headingF ew ns) < 360 ∧
      (ew = 0 → ns = 0 → headingF ew ns = .fin false 0 (-1074))

/-- R15: RN gives a binary64 value, none is nearer, and the one with the even significand where two are nearest. -/
def Obligations.RoundingIsNearestEven : Prop :=
  ∀ q : ℚ, |q| < 2 ^ 1024 - 2 ^ 970 →
    NearestTo (rn q) (q : ℝ) ∧
      ∀ b : DWord, isFinite (ofBits b) = true → value (ofBits b) ≠ value (rn q) →
        |value (ofBits b) - q| = |value (rn q) - q| → ∃ neg m e, rn q = .fin neg (2 * m) e

/-- R15: the encoding of a decoded value is the pattern it came from, NaNs (log 13) apart. -/
def Obligations.Binary64RoundTrip : Prop :=
  ∀ b : DWord, ofBits b ≠ .nan → toBits (ofBits b) = b

/-- R160: POS_TO_SLOT copies parity, coordinates and timestamp into the selected slot only. -/
def Obligations.PosToSlotCopies : Prop :=
  ∀ (s : State) (p : Pending) (slot : BitVec 1), s.cst = .busy p →
    p.snap.msg.kind = .airbornePosition →
    ∃ t, exec (.posToSlot slot) s = .next t ∧ CompletesWriting (slotRegs slot) s t ∧
      (if slot = 0 then t.slot0 else t.slot1) =
        ⟨p.snap.msg.pos.f, p.snap.msg.pos.latCpr, p.snap.msg.pos.lonCpr, p.snap.msg.ts⟩

/-- R161, R162: CPR_NL gives the zone count of NL_LAT by the table of bounds, which is written out here: even in its
operand, 59 at zero, 0 for NaN, infinities and magnitudes above 87. -/
def Obligations.CprNlByTable : Prop :=
  ∀ (s : State) (p : Pending), s.cst = .busy p →
    ∃ t, exec .cprNl s = .next t ∧ IsZoneCount p.snap.nlLat (readReg t .res0).toNat ∧ readReg t .res1 = 0 ∧
      CompletesWriting resRegs s t

/-- R164, R165: equal parity, then timestamps more than 10,000 ms apart; everything else of the result is 0. -/
def Obligations.CprPreconditions : Prop :=
  ∀ (s : State) (p : Pending), s.cst = .busy p →
    ∃ t, exec .cprResolve s = .next t ∧ CompletesWriting cprRegs s t ∧
      (p.snap.slot0.f = p.snap.slot1.f →
        readReg t .cprStatus = 0x00000010#32 ∧ ∀ r ∈ cprRegs, r ≠ .cprStatus → readReg t r = 0) ∧
      (p.snap.slot0.f ≠ p.snap.slot1.f →
        (10000 < |(p.snap.slot0.ts.toNat : Int) - p.snap.slot1.ts.toNat| ↔
          readReg t .cprStatus = 0x00000020#32) ∧
        (10000 < |(p.snap.slot0.ts.toNat : Int) - p.snap.slot1.ts.toNat| →
          ∀ r ∈ cprRegs, r ≠ .cprStatus → readReg t r = 0))

/-- R172: exchanging the two slots changes no CPR result register. -/
def Obligations.CprSlotsInterchangeable : Prop :=
  ∀ (s s' : State) (p p' : Pending), s.cst = .busy p → s'.cst = .busy p' →
    p'.snap.slot0 = p.snap.slot1 → p'.snap.slot1 = p.snap.slot0 → p'.snap.refLon = p.snap.refLon →
    ∃ t t', exec .cprResolve s = .next t ∧ exec .cprResolve s' = .next t' ∧ t'.cpr = t.cpr

/-- R163, R168, R170, R171, R44: when the result is valid, and which reason an invalid one has. VALID goes with REASON
OK, a positive zone count that is the count of the latitude given, a finite reference and finite coordinates; an
invalid result has the coordinates +0.0. Once the preconditions hold, REASON is NL exactly when the zone count is 0,
REF when the count is positive and the reference is a NaN or infinite, and the result IS valid when the count is
positive and the reference is finite and of magnitude at most 2^1023 (beyond that
CprLongitudeResolved says when). -/
def Obligations.CprValidity : Prop :=
  ∀ (s : State) (p : Pending), s.cst = .busy p →
    ∃ t, exec .cprResolve s = .next t ∧
      (readReg t .cprStatus).toNat =
        256 * t.cpr.used.toNat + 16 * cprReasonNumber t.cpr.reason + (if t.cpr.valid = true then 1 else 0) ∧
      (t.cpr.valid = true ↔ t.cpr.reason = .ok) ∧
      (t.cpr.valid = true → 0 < t.cpr.nl.toNat ∧ IsZoneCount t.cpr.lat t.cpr.nl.toNat ∧
        t.cpr.nl.toNat = nlZones t.cpr.lat ∧ isFinite (ofBits p.snap.refLon) = true ∧
        isFinite (ofBits t.cpr.lat) = true ∧ isFinite (ofBits t.cpr.lon) = true) ∧
      (t.cpr.valid = false → t.cpr.lat = 0 ∧ t.cpr.lon = 0) ∧
      (p.snap.slot0.f ≠ p.snap.slot1.f →
        |(p.snap.slot0.ts.toNat : Int) - p.snap.slot1.ts.toNat| ≤ 10000 →
        (t.cpr.reason = .ok ∨ t.cpr.reason = .nl ∨ t.cpr.reason = .ref) ∧
        (t.cpr.reason = .nl ↔ t.cpr.nl = 0) ∧ (t.cpr.nl = 0 → t.cpr.m = 0) ∧
        (t.cpr.nl ≠ 0 → isFinite (ofBits p.snap.refLon) = false → t.cpr.reason = .ref ∧ t.cpr.m = 0) ∧
        (t.cpr.nl ≠ 0 → isFinite (ofBits p.snap.refLon) = true → |value (ofBits p.snap.refLon)| ≤ 2 ^ 1023 →
          t.cpr.valid = true))

/-- R163, R166, R167, R168: the selected latitude, its zone count, J and USED, for every pair inside the time window,
whatever the reason. The even candidate is exact; the odd one is DLAT_O times an exact sum, rounded once; 360 is taken
off at 270; CPR_LAT is the selected latitude of a valid result. -/
def Obligations.CprLatitudeSelected : Prop :=
  ∀ (s : State) (p : Pending) (E O : Slot), s.cst = .busy p →
    ((p.snap.slot0 = E ∧ p.snap.slot1 = O) ∨ (p.snap.slot0 = O ∧ p.snap.slot1 = E)) →
    E.f = 0 → O.f = 1 → |(E.ts.toNat : Int) - O.ts.toNat| ≤ 10000 →
    let j : Int := (59 * E.lat.toNat - 60 * O.lat.toNat + 65536) / 131072
    let even : ℚ := 6 * ((j % 60 : Int) + (E.lat.toNat : ℚ) / 131072)
    let odd : ℚ := value (rn (value (rn (360 / 59)) * ((j % 59 : Int) + (O.lat.toNat : ℚ) / 131072)))
    let x := if O.ts.toNat < E.ts.toNat then even else odd
    let used : Nat := if O.ts.toNat < E.ts.toNat then 0 else 1
    ∃ t, exec .cprResolve s = .next t ∧ -60 ≤ j ∧ j ≤ 59 ∧ (readReg t .cprJ).toInt = j ∧
      (readReg t .cprStatus).toNat =
        256 * used + 16 * cprReasonNumber t.cpr.reason + (if t.cpr.valid = true then 1 else 0) ∧
      ∃ lat : DWord, isFinite (ofBits lat) = true ∧
        value (ofBits lat) = (if 270 ≤ x then x - 360 else x) ∧
        IsZoneCount lat (readReg t .cprNl).toNat ∧ (readReg t .cprNl).toNat = nlZones lat ∧
        (t.cpr.valid = true → readReg t .cprLatHi ++ readReg t .cprLatLo = lat)

/-- R169, R170: the longitude, once the zone count is positive (CprLatitudeSelected gives its value) and the reference
finite. `m` is an exact integer and stands in CPR_M, valid or not; the zone width, the first longitude, the zone
distance to the reference and the moved longitude are each rounded once; the result is valid exactly when the moved
longitude stays finite; the remainder by 360 and the wrap into (-180, 180] are exact. -/
def Obligations.CprLongitudeResolved : Prop :=
  ∀ (s : State) (p : Pending) (E O : Slot), s.cst = .busy p →
    ((p.snap.slot0 = E ∧ p.snap.slot1 = O) ∨ (p.snap.slot0 = O ∧ p.snap.slot1 = E)) →
    E.f = 0 → O.f = 1 →
    ∃ t, exec .cprResolve s = .next t ∧
      (t.cpr.valid = true → IsZoneCount t.cpr.lat (readReg t .cprNl).toNat) ∧
      (t.cpr.nl ≠ 0 → isFinite (ofBits p.snap.refLon) = true →
        let nl : Int := (readReg t .cprNl).toNat
        let m : Int := (E.lon.toNat * (nl - 1) - O.lon.toNat * nl + 65536) / 131072
        let even : Prop := O.ts.toNat < E.ts.toNat
        let base : ℚ := (if even then E.lon.toNat else O.lon.toNat : Nat) / 131072
        let ni : Int := max (nl - if even then 0 else 1) 1
        let dlon := value (rn (360 / ni))
        let lon0 := value (rn (dlon * ((m % ni : Int) + base)))
        let k : Int := ⌊value (rn (value (rn (value (rn (value (ofBits p.snap.refLon) - lon0)) / dlon)) + 1 / 2))⌋
        let kdlon := rn (k * dlon)
        let lon1 := rn (lon0 + value kdlon)
        let w := value lon1 - 360 * (truncQ (value lon1 / 360) : ℚ)
        (readReg t .cprM).toInt = m ∧ -nl ≤ m ∧ m ≤ nl - 1 ∧
        (t.cpr.valid = true ↔ isFinite kdlon = true ∧ isFinite lon1 = true) ∧
        (t.cpr.valid = true →
          value (ofBits (readReg t .cprLonHi ++ readReg t .cprLonLo)) =
            if 180 < w then w - 360 else if w ≤ -180 then w + 360 else w))

/-- R168, R170: a valid position lies within 87 degrees of the equator and in (-180, 180]. -/
def Obligations.CprPositionInRange : Prop :=
  ∀ (s t : State), exec .cprResolve s = .next t → t.cpr.valid = true →
    -87 ≤ value (ofBits t.cpr.lat) ∧ value (ofBits t.cpr.lat) ≤ 87 ∧
    -180 < value (ofBits t.cpr.lon) ∧ value (ofBits t.cpr.lon) ≤ 180
end

