-- ==== Sys2Proof/Laws/Decode.lean ====
section
/-! SUPPORT. What the decoder's answer says about the word. -/

namespace Sys2Proof

/-- An accepted word: the opcode selects the command, no reserved bit is set, the operands are legal. -/
theorem decode_ok_iff (w : Word) (i : Instr) :
    decode w = .ok i ↔
      selectByOpcode w = some i ∧ w &&& reservedMask i.format = 0#32 ∧ i.wellFormed = true := by
  unfold decode
  cases h : selectByOpcode w with
  | none => simp
  | some j =>
    by_cases hm : w &&& reservedMask j.format = 0#32 <;> by_cases hw : j.wellFormed = true <;>
      simp [hm, hw] <;> rintro rfl <;> simp_all

theorem decode_wellFormed {w : Word} {i : Instr} (h : decode w = .ok i) : i.wellFormed = true :=
  ((decode_ok_iff w i).1 h).2.2

theorem decode_selects {w : Word} {i : Instr} (h : decode w = .ok i) : selectByOpcode w = some i :=
  ((decode_ok_iff w i).1 h).1

/-- The opcode of a selected command is the word's opcode field. -/
theorem selectByOpcode_opcode {w : Word} {i : Instr} (h : selectByOpcode w = some i) :
    opField w = i.opcode := by
  unfold selectByOpcode at h
  split at h <;> first | (cases h; apply BitVec.eq_of_toNat_eq; assumption) | cases h

theorem opcode_le (i : Instr) : i.opcode.toNat ≤ 0x0C := by cases i <;> simp [Instr.opcode]

theorem decode_opcode {w : Word} {i : Instr} (h : decode w = .ok i) : opField w = i.opcode :=
  selectByOpcode_opcode (decode_selects h)

end Sys2Proof
end

