-- ==== Sys2Proof/Laws/State.lean ====
section
/-! SUPPORT. One lemma per field per update of State, each true by rfl, so that no later proof unfolds a record
update. -/

namespace Sys2Proof.Machine

section finishFields
@[simp] theorem finish_cst (s : State) :
    (finish s).cst = .idle := rfl
@[simp] theorem finish_done (s : State) :
    (finish s).done = true := rfl
@[simp] theorem finish_lastop (s : State) :
    (finish s).lastop = s.lastop := rfl
@[simp] theorem finish_faultCode (s : State) :
    (finish s).faultCode = s.faultCode := rfl
@[simp] theorem finish_faultCmd (s : State) :
    (finish s).faultCmd = s.faultCmd := rfl
@[simp] theorem finish_frameLen (s : State) :
    (finish s).frameLen = s.frameLen := rfl
@[simp] theorem finish_frame (s : State) :
    (finish s).frame = s.frame := rfl
@[simp] theorem finish_cframe (s : State) :
    (finish s).cframe = s.cframe := rfl
@[simp] theorem finish_crcInfo (s : State) :
    (finish s).crcInfo = s.crcInfo := rfl
@[simp] theorem finish_res0 (s : State) :
    (finish s).res0 = s.res0 := rfl
@[simp] theorem finish_res1 (s : State) :
    (finish s).res1 = s.res1 := rfl
@[simp] theorem finish_msg (s : State) :
    (finish s).msg = s.msg := rfl
@[simp] theorem finish_slot0 (s : State) :
    (finish s).slot0 = s.slot0 := rfl
@[simp] theorem finish_slot1 (s : State) :
    (finish s).slot1 = s.slot1 := rfl
@[simp] theorem finish_refLat (s : State) :
    (finish s).refLat = s.refLat := rfl
@[simp] theorem finish_refLon (s : State) :
    (finish s).refLon = s.refLon := rfl
@[simp] theorem finish_nlLat (s : State) :
    (finish s).nlLat = s.nlLat := rfl
@[simp] theorem finish_cpr (s : State) :
    (finish s).cpr = s.cpr := rfl
@[simp] theorem finish_now (s : State) :
    (finish s).now = s.now := rfl
@[simp] theorem finish_resetAsserted (s : State) :
    (finish s).resetAsserted = s.resetAsserted := rfl
@[simp] theorem finish_basePage (s : State) :
    (finish s).basePage = s.basePage := rfl
@[simp] theorem finish_events (s : State) :
    (finish s).events = s.events := rfl
@[simp] theorem finish_response (s : State) :
    (finish s).response = s.response := rfl
end finishFields

section raiseFaultFields
@[simp] theorem raiseFault_cst (c : FaultCode) (w : Word) (s : State) :
    (raiseFault c w s).cst = .faulted := rfl
@[simp] theorem raiseFault_done (c : FaultCode) (w : Word) (s : State) :
    (raiseFault c w s).done = false := rfl
@[simp] theorem raiseFault_lastop (c : FaultCode) (w : Word) (s : State) :
    (raiseFault c w s).lastop = s.lastop := rfl
@[simp] theorem raiseFault_faultCode (c : FaultCode) (w : Word) (s : State) :
    (raiseFault c w s).faultCode = c := rfl
@[simp] theorem raiseFault_faultCmd (c : FaultCode) (w : Word) (s : State) :
    (raiseFault c w s).faultCmd = w := rfl
@[simp] theorem raiseFault_frameLen (c : FaultCode) (w : Word) (s : State) :
    (raiseFault c w s).frameLen = s.frameLen := rfl
@[simp] theorem raiseFault_frame (c : FaultCode) (w : Word) (s : State) :
    (raiseFault c w s).frame = s.frame := rfl
@[simp] theorem raiseFault_cframe (c : FaultCode) (w : Word) (s : State) :
    (raiseFault c w s).cframe = s.cframe := rfl
@[simp] theorem raiseFault_crcInfo (c : FaultCode) (w : Word) (s : State) :
    (raiseFault c w s).crcInfo = s.crcInfo := rfl
@[simp] theorem raiseFault_res0 (c : FaultCode) (w : Word) (s : State) :
    (raiseFault c w s).res0 = s.res0 := rfl
@[simp] theorem raiseFault_res1 (c : FaultCode) (w : Word) (s : State) :
    (raiseFault c w s).res1 = s.res1 := rfl
@[simp] theorem raiseFault_msg (c : FaultCode) (w : Word) (s : State) :
    (raiseFault c w s).msg = s.msg := rfl
@[simp] theorem raiseFault_slot0 (c : FaultCode) (w : Word) (s : State) :
    (raiseFault c w s).slot0 = s.slot0 := rfl
@[simp] theorem raiseFault_slot1 (c : FaultCode) (w : Word) (s : State) :
    (raiseFault c w s).slot1 = s.slot1 := rfl
@[simp] theorem raiseFault_refLat (c : FaultCode) (w : Word) (s : State) :
    (raiseFault c w s).refLat = s.refLat := rfl
@[simp] theorem raiseFault_refLon (c : FaultCode) (w : Word) (s : State) :
    (raiseFault c w s).refLon = s.refLon := rfl
@[simp] theorem raiseFault_nlLat (c : FaultCode) (w : Word) (s : State) :
    (raiseFault c w s).nlLat = s.nlLat := rfl
@[simp] theorem raiseFault_cpr (c : FaultCode) (w : Word) (s : State) :
    (raiseFault c w s).cpr = s.cpr := rfl
@[simp] theorem raiseFault_now (c : FaultCode) (w : Word) (s : State) :
    (raiseFault c w s).now = s.now := rfl
@[simp] theorem raiseFault_resetAsserted (c : FaultCode) (w : Word) (s : State) :
    (raiseFault c w s).resetAsserted = s.resetAsserted := rfl
@[simp] theorem raiseFault_basePage (c : FaultCode) (w : Word) (s : State) :
    (raiseFault c w s).basePage = s.basePage := rfl
@[simp] theorem raiseFault_events (c : FaultCode) (w : Word) (s : State) :
    (raiseFault c w s).events = s.events := rfl
@[simp] theorem raiseFault_response (c : FaultCode) (w : Word) (s : State) :
    (raiseFault c w s).response = s.response := rfl
end raiseFaultFields

section acceptWordFields
@[simp] theorem acceptWord_cst (w : Word) (s : State) :
    (acceptWord w s).cst = .busy ⟨w, takeSnapshot s, none⟩ := rfl
@[simp] theorem acceptWord_done (w : Word) (s : State) :
    (acceptWord w s).done = false := rfl
@[simp] theorem acceptWord_lastop (w : Word) (s : State) :
    (acceptWord w s).lastop = opField w := rfl
@[simp] theorem acceptWord_faultCode (w : Word) (s : State) :
    (acceptWord w s).faultCode = s.faultCode := rfl
@[simp] theorem acceptWord_faultCmd (w : Word) (s : State) :
    (acceptWord w s).faultCmd = s.faultCmd := rfl
@[simp] theorem acceptWord_frameLen (w : Word) (s : State) :
    (acceptWord w s).frameLen = s.frameLen := rfl
@[simp] theorem acceptWord_frame (w : Word) (s : State) :
    (acceptWord w s).frame = s.frame := rfl
@[simp] theorem acceptWord_cframe (w : Word) (s : State) :
    (acceptWord w s).cframe = s.cframe := rfl
@[simp] theorem acceptWord_crcInfo (w : Word) (s : State) :
    (acceptWord w s).crcInfo = s.crcInfo := rfl
@[simp] theorem acceptWord_res0 (w : Word) (s : State) :
    (acceptWord w s).res0 = s.res0 := rfl
@[simp] theorem acceptWord_res1 (w : Word) (s : State) :
    (acceptWord w s).res1 = s.res1 := rfl
@[simp] theorem acceptWord_msg (w : Word) (s : State) :
    (acceptWord w s).msg = s.msg := rfl
@[simp] theorem acceptWord_slot0 (w : Word) (s : State) :
    (acceptWord w s).slot0 = s.slot0 := rfl
@[simp] theorem acceptWord_slot1 (w : Word) (s : State) :
    (acceptWord w s).slot1 = s.slot1 := rfl
@[simp] theorem acceptWord_refLat (w : Word) (s : State) :
    (acceptWord w s).refLat = s.refLat := rfl
@[simp] theorem acceptWord_refLon (w : Word) (s : State) :
    (acceptWord w s).refLon = s.refLon := rfl
@[simp] theorem acceptWord_nlLat (w : Word) (s : State) :
    (acceptWord w s).nlLat = s.nlLat := rfl
@[simp] theorem acceptWord_cpr (w : Word) (s : State) :
    (acceptWord w s).cpr = s.cpr := rfl
@[simp] theorem acceptWord_now (w : Word) (s : State) :
    (acceptWord w s).now = s.now := rfl
@[simp] theorem acceptWord_resetAsserted (w : Word) (s : State) :
    (acceptWord w s).resetAsserted = s.resetAsserted := rfl
@[simp] theorem acceptWord_basePage (w : Word) (s : State) :
    (acceptWord w s).basePage = s.basePage := rfl
@[simp] theorem acceptWord_events (w : Word) (s : State) :
    (acceptWord w s).events = s.events := rfl
@[simp] theorem acceptWord_response (w : Word) (s : State) :
    (acceptWord w s).response = s.response := rfl
end acceptWordFields

section setResFields
@[simp] theorem setRes_cst (lo hi : Word) (s : State) :
    (setRes lo hi s).cst = s.cst := rfl
@[simp] theorem setRes_done (lo hi : Word) (s : State) :
    (setRes lo hi s).done = s.done := rfl
@[simp] theorem setRes_lastop (lo hi : Word) (s : State) :
    (setRes lo hi s).lastop = s.lastop := rfl
@[simp] theorem setRes_faultCode (lo hi : Word) (s : State) :
    (setRes lo hi s).faultCode = s.faultCode := rfl
@[simp] theorem setRes_faultCmd (lo hi : Word) (s : State) :
    (setRes lo hi s).faultCmd = s.faultCmd := rfl
@[simp] theorem setRes_frameLen (lo hi : Word) (s : State) :
    (setRes lo hi s).frameLen = s.frameLen := rfl
@[simp] theorem setRes_frame (lo hi : Word) (s : State) :
    (setRes lo hi s).frame = s.frame := rfl
@[simp] theorem setRes_cframe (lo hi : Word) (s : State) :
    (setRes lo hi s).cframe = s.cframe := rfl
@[simp] theorem setRes_crcInfo (lo hi : Word) (s : State) :
    (setRes lo hi s).crcInfo = s.crcInfo := rfl
@[simp] theorem setRes_res0 (lo hi : Word) (s : State) :
    (setRes lo hi s).res0 = lo := rfl
@[simp] theorem setRes_res1 (lo hi : Word) (s : State) :
    (setRes lo hi s).res1 = hi := rfl
@[simp] theorem setRes_msg (lo hi : Word) (s : State) :
    (setRes lo hi s).msg = s.msg := rfl
@[simp] theorem setRes_slot0 (lo hi : Word) (s : State) :
    (setRes lo hi s).slot0 = s.slot0 := rfl
@[simp] theorem setRes_slot1 (lo hi : Word) (s : State) :
    (setRes lo hi s).slot1 = s.slot1 := rfl
@[simp] theorem setRes_refLat (lo hi : Word) (s : State) :
    (setRes lo hi s).refLat = s.refLat := rfl
@[simp] theorem setRes_refLon (lo hi : Word) (s : State) :
    (setRes lo hi s).refLon = s.refLon := rfl
@[simp] theorem setRes_nlLat (lo hi : Word) (s : State) :
    (setRes lo hi s).nlLat = s.nlLat := rfl
@[simp] theorem setRes_cpr (lo hi : Word) (s : State) :
    (setRes lo hi s).cpr = s.cpr := rfl
@[simp] theorem setRes_now (lo hi : Word) (s : State) :
    (setRes lo hi s).now = s.now := rfl
@[simp] theorem setRes_resetAsserted (lo hi : Word) (s : State) :
    (setRes lo hi s).resetAsserted = s.resetAsserted := rfl
@[simp] theorem setRes_basePage (lo hi : Word) (s : State) :
    (setRes lo hi s).basePage = s.basePage := rfl
@[simp] theorem setRes_events (lo hi : Word) (s : State) :
    (setRes lo hi s).events = s.events := rfl
@[simp] theorem setRes_response (lo hi : Word) (s : State) :
    (setRes lo hi s).response = s.response := rfl
end setResFields

section setCrcFields
@[simp] theorem setCrc_cst (f : Frame) (i : CrcInfo) (s : State) :
    (setCrc f i s).cst = s.cst := rfl
@[simp] theorem setCrc_done (f : Frame) (i : CrcInfo) (s : State) :
    (setCrc f i s).done = s.done := rfl
@[simp] theorem setCrc_lastop (f : Frame) (i : CrcInfo) (s : State) :
    (setCrc f i s).lastop = s.lastop := rfl
@[simp] theorem setCrc_faultCode (f : Frame) (i : CrcInfo) (s : State) :
    (setCrc f i s).faultCode = s.faultCode := rfl
@[simp] theorem setCrc_faultCmd (f : Frame) (i : CrcInfo) (s : State) :
    (setCrc f i s).faultCmd = s.faultCmd := rfl
@[simp] theorem setCrc_frameLen (f : Frame) (i : CrcInfo) (s : State) :
    (setCrc f i s).frameLen = s.frameLen := rfl
@[simp] theorem setCrc_frame (f : Frame) (i : CrcInfo) (s : State) :
    (setCrc f i s).frame = s.frame := rfl
@[simp] theorem setCrc_cframe (f : Frame) (i : CrcInfo) (s : State) :
    (setCrc f i s).cframe = f := rfl
@[simp] theorem setCrc_crcInfo (f : Frame) (i : CrcInfo) (s : State) :
    (setCrc f i s).crcInfo = i := rfl
@[simp] theorem setCrc_res0 (f : Frame) (i : CrcInfo) (s : State) :
    (setCrc f i s).res0 = s.res0 := rfl
@[simp] theorem setCrc_res1 (f : Frame) (i : CrcInfo) (s : State) :
    (setCrc f i s).res1 = s.res1 := rfl
@[simp] theorem setCrc_msg (f : Frame) (i : CrcInfo) (s : State) :
    (setCrc f i s).msg = s.msg := rfl
@[simp] theorem setCrc_slot0 (f : Frame) (i : CrcInfo) (s : State) :
    (setCrc f i s).slot0 = s.slot0 := rfl
@[simp] theorem setCrc_slot1 (f : Frame) (i : CrcInfo) (s : State) :
    (setCrc f i s).slot1 = s.slot1 := rfl
@[simp] theorem setCrc_refLat (f : Frame) (i : CrcInfo) (s : State) :
    (setCrc f i s).refLat = s.refLat := rfl
@[simp] theorem setCrc_refLon (f : Frame) (i : CrcInfo) (s : State) :
    (setCrc f i s).refLon = s.refLon := rfl
@[simp] theorem setCrc_nlLat (f : Frame) (i : CrcInfo) (s : State) :
    (setCrc f i s).nlLat = s.nlLat := rfl
@[simp] theorem setCrc_cpr (f : Frame) (i : CrcInfo) (s : State) :
    (setCrc f i s).cpr = s.cpr := rfl
@[simp] theorem setCrc_now (f : Frame) (i : CrcInfo) (s : State) :
    (setCrc f i s).now = s.now := rfl
@[simp] theorem setCrc_resetAsserted (f : Frame) (i : CrcInfo) (s : State) :
    (setCrc f i s).resetAsserted = s.resetAsserted := rfl
@[simp] theorem setCrc_basePage (f : Frame) (i : CrcInfo) (s : State) :
    (setCrc f i s).basePage = s.basePage := rfl
@[simp] theorem setCrc_events (f : Frame) (i : CrcInfo) (s : State) :
    (setCrc f i s).events = s.events := rfl
@[simp] theorem setCrc_response (f : Frame) (i : CrcInfo) (s : State) :
    (setCrc f i s).response = s.response := rfl
end setCrcFields

section setMsgFields
@[simp] theorem setMsg_cst (m : MsgRecord) (s : State) :
    (setMsg m s).cst = s.cst := rfl
@[simp] theorem setMsg_done (m : MsgRecord) (s : State) :
    (setMsg m s).done = s.done := rfl
@[simp] theorem setMsg_lastop (m : MsgRecord) (s : State) :
    (setMsg m s).lastop = s.lastop := rfl
@[simp] theorem setMsg_faultCode (m : MsgRecord) (s : State) :
    (setMsg m s).faultCode = s.faultCode := rfl
@[simp] theorem setMsg_faultCmd (m : MsgRecord) (s : State) :
    (setMsg m s).faultCmd = s.faultCmd := rfl
@[simp] theorem setMsg_frameLen (m : MsgRecord) (s : State) :
    (setMsg m s).frameLen = s.frameLen := rfl
@[simp] theorem setMsg_frame (m : MsgRecord) (s : State) :
    (setMsg m s).frame = s.frame := rfl
@[simp] theorem setMsg_cframe (m : MsgRecord) (s : State) :
    (setMsg m s).cframe = s.cframe := rfl
@[simp] theorem setMsg_crcInfo (m : MsgRecord) (s : State) :
    (setMsg m s).crcInfo = s.crcInfo := rfl
@[simp] theorem setMsg_res0 (m : MsgRecord) (s : State) :
    (setMsg m s).res0 = s.res0 := rfl
@[simp] theorem setMsg_res1 (m : MsgRecord) (s : State) :
    (setMsg m s).res1 = s.res1 := rfl
@[simp] theorem setMsg_msg (m : MsgRecord) (s : State) :
    (setMsg m s).msg = m := rfl
@[simp] theorem setMsg_slot0 (m : MsgRecord) (s : State) :
    (setMsg m s).slot0 = s.slot0 := rfl
@[simp] theorem setMsg_slot1 (m : MsgRecord) (s : State) :
    (setMsg m s).slot1 = s.slot1 := rfl
@[simp] theorem setMsg_refLat (m : MsgRecord) (s : State) :
    (setMsg m s).refLat = s.refLat := rfl
@[simp] theorem setMsg_refLon (m : MsgRecord) (s : State) :
    (setMsg m s).refLon = s.refLon := rfl
@[simp] theorem setMsg_nlLat (m : MsgRecord) (s : State) :
    (setMsg m s).nlLat = s.nlLat := rfl
@[simp] theorem setMsg_cpr (m : MsgRecord) (s : State) :
    (setMsg m s).cpr = s.cpr := rfl
@[simp] theorem setMsg_now (m : MsgRecord) (s : State) :
    (setMsg m s).now = s.now := rfl
@[simp] theorem setMsg_resetAsserted (m : MsgRecord) (s : State) :
    (setMsg m s).resetAsserted = s.resetAsserted := rfl
@[simp] theorem setMsg_basePage (m : MsgRecord) (s : State) :
    (setMsg m s).basePage = s.basePage := rfl
@[simp] theorem setMsg_events (m : MsgRecord) (s : State) :
    (setMsg m s).events = s.events := rfl
@[simp] theorem setMsg_response (m : MsgRecord) (s : State) :
    (setMsg m s).response = s.response := rfl
end setMsgFields

section setCprFields
@[simp] theorem setCpr_cst (c : CprResult) (s : State) :
    (setCpr c s).cst = s.cst := rfl
@[simp] theorem setCpr_done (c : CprResult) (s : State) :
    (setCpr c s).done = s.done := rfl
@[simp] theorem setCpr_lastop (c : CprResult) (s : State) :
    (setCpr c s).lastop = s.lastop := rfl
@[simp] theorem setCpr_faultCode (c : CprResult) (s : State) :
    (setCpr c s).faultCode = s.faultCode := rfl
@[simp] theorem setCpr_faultCmd (c : CprResult) (s : State) :
    (setCpr c s).faultCmd = s.faultCmd := rfl
@[simp] theorem setCpr_frameLen (c : CprResult) (s : State) :
    (setCpr c s).frameLen = s.frameLen := rfl
@[simp] theorem setCpr_frame (c : CprResult) (s : State) :
    (setCpr c s).frame = s.frame := rfl
@[simp] theorem setCpr_cframe (c : CprResult) (s : State) :
    (setCpr c s).cframe = s.cframe := rfl
@[simp] theorem setCpr_crcInfo (c : CprResult) (s : State) :
    (setCpr c s).crcInfo = s.crcInfo := rfl
@[simp] theorem setCpr_res0 (c : CprResult) (s : State) :
    (setCpr c s).res0 = s.res0 := rfl
@[simp] theorem setCpr_res1 (c : CprResult) (s : State) :
    (setCpr c s).res1 = s.res1 := rfl
@[simp] theorem setCpr_msg (c : CprResult) (s : State) :
    (setCpr c s).msg = s.msg := rfl
@[simp] theorem setCpr_slot0 (c : CprResult) (s : State) :
    (setCpr c s).slot0 = s.slot0 := rfl
@[simp] theorem setCpr_slot1 (c : CprResult) (s : State) :
    (setCpr c s).slot1 = s.slot1 := rfl
@[simp] theorem setCpr_refLat (c : CprResult) (s : State) :
    (setCpr c s).refLat = s.refLat := rfl
@[simp] theorem setCpr_refLon (c : CprResult) (s : State) :
    (setCpr c s).refLon = s.refLon := rfl
@[simp] theorem setCpr_nlLat (c : CprResult) (s : State) :
    (setCpr c s).nlLat = s.nlLat := rfl
@[simp] theorem setCpr_cpr (c : CprResult) (s : State) :
    (setCpr c s).cpr = c := rfl
@[simp] theorem setCpr_now (c : CprResult) (s : State) :
    (setCpr c s).now = s.now := rfl
@[simp] theorem setCpr_resetAsserted (c : CprResult) (s : State) :
    (setCpr c s).resetAsserted = s.resetAsserted := rfl
@[simp] theorem setCpr_basePage (c : CprResult) (s : State) :
    (setCpr c s).basePage = s.basePage := rfl
@[simp] theorem setCpr_events (c : CprResult) (s : State) :
    (setCpr c s).events = s.events := rfl
@[simp] theorem setCpr_response (c : CprResult) (s : State) :
    (setCpr c s).response = s.response := rfl
end setCprFields

section resetBlockFields
@[simp] theorem resetBlock_cst (s : State) :
    (resetBlock s).cst = .idle := rfl
@[simp] theorem resetBlock_done (s : State) :
    (resetBlock s).done = false := rfl
@[simp] theorem resetBlock_lastop (s : State) :
    (resetBlock s).lastop = 0 := rfl
@[simp] theorem resetBlock_faultCode (s : State) :
    (resetBlock s).faultCode = .noFault := rfl
@[simp] theorem resetBlock_faultCmd (s : State) :
    (resetBlock s).faultCmd = 0 := rfl
@[simp] theorem resetBlock_frameLen (s : State) :
    (resetBlock s).frameLen = 0 := rfl
@[simp] theorem resetBlock_frame (s : State) :
    (resetBlock s).frame = 0 := rfl
@[simp] theorem resetBlock_cframe (s : State) :
    (resetBlock s).cframe = 0 := rfl
@[simp] theorem resetBlock_crcInfo (s : State) :
    (resetBlock s).crcInfo = ⟨false, Config.noFlip, 0⟩ := rfl
@[simp] theorem resetBlock_res0 (s : State) :
    (resetBlock s).res0 = 0 := rfl
@[simp] theorem resetBlock_res1 (s : State) :
    (resetBlock s).res1 = 0 := rfl
@[simp] theorem resetBlock_msg (s : State) :
    (resetBlock s).msg = MsgRecord.zero := rfl
@[simp] theorem resetBlock_slot0 (s : State) :
    (resetBlock s).slot0 = Slot.zero := rfl
@[simp] theorem resetBlock_slot1 (s : State) :
    (resetBlock s).slot1 = Slot.zero := rfl
@[simp] theorem resetBlock_refLat (s : State) :
    (resetBlock s).refLat = 0 := rfl
@[simp] theorem resetBlock_refLon (s : State) :
    (resetBlock s).refLon = 0 := rfl
@[simp] theorem resetBlock_nlLat (s : State) :
    (resetBlock s).nlLat = 0 := rfl
@[simp] theorem resetBlock_cpr (s : State) :
    (resetBlock s).cpr = CprResult.zero := rfl
@[simp] theorem resetBlock_now (s : State) :
    (resetBlock s).now = s.now := rfl
@[simp] theorem resetBlock_resetAsserted (s : State) :
    (resetBlock s).resetAsserted = s.resetAsserted := rfl
@[simp] theorem resetBlock_basePage (s : State) :
    (resetBlock s).basePage = s.basePage := rfl
@[simp] theorem resetBlock_events (s : State) :
    (resetBlock s).events = s.events := rfl
@[simp] theorem resetBlock_response (s : State) :
    (resetBlock s).response = s.response := rfl
end resetBlockFields

section setSlotFields
@[simp] theorem setSlot_cst (n : BitVec 1) (t : Slot) (s : State) :
    (setSlot n t s).cst = s.cst := by
  unfold setSlot; split <;> rfl
@[simp] theorem setSlot_done (n : BitVec 1) (t : Slot) (s : State) :
    (setSlot n t s).done = s.done := by
  unfold setSlot; split <;> rfl
@[simp] theorem setSlot_lastop (n : BitVec 1) (t : Slot) (s : State) :
    (setSlot n t s).lastop = s.lastop := by
  unfold setSlot; split <;> rfl
@[simp] theorem setSlot_faultCode (n : BitVec 1) (t : Slot) (s : State) :
    (setSlot n t s).faultCode = s.faultCode := by
  unfold setSlot; split <;> rfl
@[simp] theorem setSlot_faultCmd (n : BitVec 1) (t : Slot) (s : State) :
    (setSlot n t s).faultCmd = s.faultCmd := by
  unfold setSlot; split <;> rfl
@[simp] theorem setSlot_frameLen (n : BitVec 1) (t : Slot) (s : State) :
    (setSlot n t s).frameLen = s.frameLen := by
  unfold setSlot; split <;> rfl
@[simp] theorem setSlot_frame (n : BitVec 1) (t : Slot) (s : State) :
    (setSlot n t s).frame = s.frame := by
  unfold setSlot; split <;> rfl
@[simp] theorem setSlot_cframe (n : BitVec 1) (t : Slot) (s : State) :
    (setSlot n t s).cframe = s.cframe := by
  unfold setSlot; split <;> rfl
@[simp] theorem setSlot_crcInfo (n : BitVec 1) (t : Slot) (s : State) :
    (setSlot n t s).crcInfo = s.crcInfo := by
  unfold setSlot; split <;> rfl
@[simp] theorem setSlot_res0 (n : BitVec 1) (t : Slot) (s : State) :
    (setSlot n t s).res0 = s.res0 := by
  unfold setSlot; split <;> rfl
@[simp] theorem setSlot_res1 (n : BitVec 1) (t : Slot) (s : State) :
    (setSlot n t s).res1 = s.res1 := by
  unfold setSlot; split <;> rfl
@[simp] theorem setSlot_msg (n : BitVec 1) (t : Slot) (s : State) :
    (setSlot n t s).msg = s.msg := by
  unfold setSlot; split <;> rfl
@[simp] theorem setSlot_slot0 (n : BitVec 1) (t : Slot) (s : State) :
    (setSlot n t s).slot0 = if n = 0 then t else s.slot0 := by
  unfold setSlot; split <;> rfl
@[simp] theorem setSlot_slot1 (n : BitVec 1) (t : Slot) (s : State) :
    (setSlot n t s).slot1 = if n = 0 then s.slot1 else t := by
  unfold setSlot; split <;> rfl
@[simp] theorem setSlot_refLat (n : BitVec 1) (t : Slot) (s : State) :
    (setSlot n t s).refLat = s.refLat := by
  unfold setSlot; split <;> rfl
@[simp] theorem setSlot_refLon (n : BitVec 1) (t : Slot) (s : State) :
    (setSlot n t s).refLon = s.refLon := by
  unfold setSlot; split <;> rfl
@[simp] theorem setSlot_nlLat (n : BitVec 1) (t : Slot) (s : State) :
    (setSlot n t s).nlLat = s.nlLat := by
  unfold setSlot; split <;> rfl
@[simp] theorem setSlot_cpr (n : BitVec 1) (t : Slot) (s : State) :
    (setSlot n t s).cpr = s.cpr := by
  unfold setSlot; split <;> rfl
@[simp] theorem setSlot_now (n : BitVec 1) (t : Slot) (s : State) :
    (setSlot n t s).now = s.now := by
  unfold setSlot; split <;> rfl
@[simp] theorem setSlot_resetAsserted (n : BitVec 1) (t : Slot) (s : State) :
    (setSlot n t s).resetAsserted = s.resetAsserted := by
  unfold setSlot; split <;> rfl
@[simp] theorem setSlot_basePage (n : BitVec 1) (t : Slot) (s : State) :
    (setSlot n t s).basePage = s.basePage := by
  unfold setSlot; split <;> rfl
@[simp] theorem setSlot_events (n : BitVec 1) (t : Slot) (s : State) :
    (setSlot n t s).events = s.events := by
  unfold setSlot; split <;> rfl
@[simp] theorem setSlot_response (n : BitVec 1) (t : Slot) (s : State) :
    (setSlot n t s).response = s.response := by
  unfold setSlot; split <;> rfl
end setSlotFields

section takeSnapshotFields
@[simp] theorem takeSnapshot_frameLen (s : State) : (takeSnapshot s).frameLen = s.frameLen := rfl
@[simp] theorem takeSnapshot_frame (s : State) : (takeSnapshot s).frame = s.frame := rfl
@[simp] theorem takeSnapshot_slot0 (s : State) : (takeSnapshot s).slot0 = s.slot0 := rfl
@[simp] theorem takeSnapshot_slot1 (s : State) : (takeSnapshot s).slot1 = s.slot1 := rfl
@[simp] theorem takeSnapshot_refLon (s : State) : (takeSnapshot s).refLon = s.refLon := rfl
@[simp] theorem takeSnapshot_nlLat (s : State) : (takeSnapshot s).nlLat = s.nlLat := rfl
@[simp] theorem takeSnapshot_msg (s : State) : (takeSnapshot s).msg = s.msg := rfl
end takeSnapshotFields

end Sys2Proof.Machine
end

