-- ==== Sys2Proof/Laws/Regs.lean ====
section
/-! SUPPORT. The register map: every register stands at its own offset, and what a write to an input register
leaves alone. -/

namespace Sys2Proof.Machine

theorem regAt_regOffset (r : Reg) : regAt (regOffset r) = some r := by cases r <;> decide

/-- The offsets are 4-aligned and inside the register space (R24). -/
theorem regOffset_legal (r : Reg) : regOffset r < Config.spaceBytes ∧ regOffset r % 4 = 0 := by
  cases r <;> decide

theorem readOffset_regOffset (s : State) (r : Reg) : readOffset s (regOffset r) = readReg s r := by
  simp [readOffset, regAt_regOffset]

theorem writeOffset_regOffset (s : State) (r : Reg) (v : Word) :
    writeOffset s (regOffset r) v = writeReg s r v := by
  simp [writeOffset, regAt_regOffset]

section writeInputFields
variable (s : State) (v : Word) (r : Reg)

@[simp] theorem writeInput_cst : (writeInput s v r).cst = s.cst := by cases r <;> rfl
@[simp] theorem writeInput_done : (writeInput s v r).done = s.done := by cases r <;> rfl
@[simp] theorem writeInput_lastop : (writeInput s v r).lastop = s.lastop := by cases r <;> rfl
@[simp] theorem writeInput_faultCode : (writeInput s v r).faultCode = s.faultCode := by cases r <;> rfl
@[simp] theorem writeInput_faultCmd : (writeInput s v r).faultCmd = s.faultCmd := by cases r <;> rfl
@[simp] theorem writeInput_cframe : (writeInput s v r).cframe = s.cframe := by cases r <;> rfl
@[simp] theorem writeInput_crcInfo : (writeInput s v r).crcInfo = s.crcInfo := by cases r <;> rfl
@[simp] theorem writeInput_res0 : (writeInput s v r).res0 = s.res0 := by cases r <;> rfl
@[simp] theorem writeInput_res1 : (writeInput s v r).res1 = s.res1 := by cases r <;> rfl
@[simp] theorem writeInput_msg : (writeInput s v r).msg = s.msg := by cases r <;> rfl
@[simp] theorem writeInput_cpr : (writeInput s v r).cpr = s.cpr := by cases r <;> rfl
@[simp] theorem writeInput_now : (writeInput s v r).now = s.now := by cases r <;> rfl
@[simp] theorem writeInput_resetAsserted : (writeInput s v r).resetAsserted = s.resetAsserted := by
  cases r <;> rfl
@[simp] theorem writeInput_basePage : (writeInput s v r).basePage = s.basePage := by cases r <;> rfl
@[simp] theorem writeInput_events : (writeInput s v r).events = s.events := by cases r <;> rfl
@[simp] theorem writeInput_response : (writeInput s v r).response = s.response := by cases r <;> rfl

end writeInputFields

end Sys2Proof.Machine
end

