-- ==== Sys2Proof/Laws/Ops.lean ====
section
/-! SUPPORT. One lemma for each shared operation that says all it can do. -/

namespace Sys2Proof.Machine

/-- A completion while a command is pending. -/
theorem completing_busy {i : Instr} {s : State} {write : Pending → State → State} {p : Pending}
    (hs : s.cst = .busy p) :
    completing i s write =
      match operandFault i p with
      | none => .next (finish (write p s))
      | some code => .next (raiseFault code p.word s) := by
  cases h : operandFault i p <;> simp only [completing, hs, h]

/-- A completion whose operands acceptance let through. -/
theorem completing_next {i : Instr} {s : State} {write : Pending → State → State} {p : Pending}
    (hs : s.cst = .busy p) (ho : operandFault i p = none) :
    completing i s write = .next (finish (write p s)) := by
  rw [completing_busy hs, ho]

/-- What a completion can do at all. -/
theorem completing_cases {i : Instr} {s t : State} {write : Pending → State → State}
    (h : completing i s write = .next t) :
    ∃ p, s.cst = .busy p ∧
      ((operandFault i p = none ∧ t = finish (write p s)) ∨
        ∃ code, operandFault i p = some code ∧ t = raiseFault code p.word s) := by
  unfold completing at h
  split at h
  · rename_i p hp
    refine ⟨p, hp, ?_⟩
    split at h <;> cases h
    · exact .inl ⟨‹_›, rfl⟩
    · exact .inr ⟨_, ‹_›, rfl⟩
  all_goals cases h

/-- A completion never faults. -/
theorem completing_ne_fault (i : Instr) (s : State) (write : Pending → State → State) (f : Fault) :
    completing i s write ≠ .fault f := by
  unfold completing
  split
  · split <;> simp
  all_goals simp

/-- A decoded command's operands raise a fault exactly by the check of its source. -/
theorem operandFault_of_decode {w : Word} {i : Instr} {p : Pending} (h : decode w = .ok i) :
    operandFault i p = sourceFault i p.snap.msg.kind := by
  simp [operandFault, decode_wellFormed h]

/-- What a write to CMD can do (R64). -/
theorem hostCommand_cases (w : Word) (s : State) :
    (s.cst = .faulted ∧ hostCommand w s = s) ∨
    ((∃ p, s.cst = .busy p) ∧ hostCommand w s = raiseFault .overrun w s) ∨
    (s.cst = .idle ∧ ∃ e, decode w = .error e ∧ hostCommand w s = raiseFault (decodeFault e) w s) ∨
    (s.cst = .idle ∧ ∃ i code, decode w = .ok i ∧ sourceFault i s.msg.kind = some code ∧
      hostCommand w s = raiseFault code w s) ∨
    (s.cst = .idle ∧ ∃ i, decode w = .ok i ∧ sourceFault i s.msg.kind = none ∧
      hostCommand w s = acceptWord w s) := by
  unfold hostCommand
  cases hc : s.cst with
  | faulted => simp
  | busy p => simp
  | idle =>
    cases hd : decode w with
    | error e => simp
    | ok i =>
      cases hf : sourceFault i s.msg.kind <;> simp [hf]

/-- A decoding failure is a real fault code. -/
theorem decodeFault_ne_noFault (e : DecodeError) : decodeFault e ≠ .noFault := by cases e <;> decide

/-- A refused source is SLOT_SOURCE. -/
theorem sourceFault_some {i : Instr} {k : MsgKind} {c : FaultCode} (h : sourceFault i k = some c) :
    c = .slotSource := by
  cases i <;> simp [sourceFault] at h
  exact h.2.symm

/-- The registers a CMD write never changes: every input and result register (R64, R205). -/
theorem hostCommand_keeps (w : Word) (s : State) :
    (hostCommand w s).frameLen = s.frameLen ∧ (hostCommand w s).frame = s.frame ∧
    (hostCommand w s).cframe = s.cframe ∧ (hostCommand w s).crcInfo = s.crcInfo ∧
    (hostCommand w s).res0 = s.res0 ∧ (hostCommand w s).res1 = s.res1 ∧
    (hostCommand w s).msg = s.msg ∧ (hostCommand w s).slot0 = s.slot0 ∧
    (hostCommand w s).slot1 = s.slot1 ∧ (hostCommand w s).refLat = s.refLat ∧
    (hostCommand w s).refLon = s.refLon ∧ (hostCommand w s).nlLat = s.nlLat ∧
    (hostCommand w s).cpr = s.cpr ∧ (hostCommand w s).now = s.now ∧
    (hostCommand w s).resetAsserted = s.resetAsserted ∧ (hostCommand w s).basePage = s.basePage ∧
    (hostCommand w s).events = s.events ∧ (hostCommand w s).response = s.response := by
  rcases hostCommand_cases w s with ⟨_, h⟩ | ⟨_, h⟩ | ⟨_, _, _, h⟩ | ⟨_, _, _, _, _, h⟩ | ⟨_, _, _, _, h⟩ <;>
    rw [h] <;> simp

/-- An answered host read: a 32-bit access at a 4-aligned offset of the register space (R51). -/
theorem hostRead_cases {addr size : Nat} {s t : State} (h : hostRead addr size s = .next t) :
    s.resetAsserted = false ∧ ∃ off, busOffset s addr size = some off ∧
      t = { s with response := .data (readOffset s off) } := by
  unfold hostRead at h
  split at h
  · cases h
  · rename_i hr
    split at h
    · cases h
      exact ⟨by simpa using hr, _, ‹_›, rfl⟩
    · cases h

/-- An answered host write (R51). -/
theorem hostWrite_cases {addr size : Nat} {v : Word} {s t : State} (h : hostWrite addr size v s = .next t) :
    s.resetAsserted = false ∧ ∃ off, busOffset s addr size = some off ∧
      t = { writeOffset s off v with response := .nothing } := by
  unfold hostWrite at h
  split at h
  · cases h
  · rename_i hr
    split at h
    · cases h
      exact ⟨by simpa using hr, _, ‹_›, rfl⟩
    · cases h

/-- The bus answers the address of every register (R51). -/
theorem busOffset_register (s : State) (r : Reg) :
    busOffset s (baseAddress s + regOffset r) 4 = some (regOffset r) := by
  have h := regOffset_legal r
  unfold busOffset
  simp [h.1, h.2]

/-- A host read of a register (R51, R58). -/
theorem hostRead_register {s : State} (h : s.resetAsserted = false) (r : Reg) :
    hostRead (baseAddress s + regOffset r) 4 s = .next { s with response := .data (readReg s r) } := by
  unfold hostRead
  rw [h, busOffset_register, if_neg (by simp), ← readOffset_regOffset]

/-- A host write to a register (R51). -/
theorem hostWrite_register {s : State} (h : s.resetAsserted = false) (r : Reg) (v : Word) :
    hostWrite (baseAddress s + regOffset r) 4 v s = .next { writeReg s r v with response := .nothing } := by
  unfold hostWrite
  rw [h, busOffset_register, if_neg (by simp), ← writeOffset_regOffset]

/-- What a write to an offset can do: nothing, an input register, or a CMD write. -/
theorem writeOffset_cases (s : State) (off : Nat) (v : Word) :
    writeOffset s off v = s ∨ (∃ r, r ≠ .cmd ∧ writeOffset s off v = writeInput s v r) ∨
      writeOffset s off v = hostCommand v s := by
  unfold writeOffset writeReg
  split
  · rename_i r _
    by_cases hr : r = .cmd
    · simp [hr]
    · exact .inr (.inl ⟨r, hr, by simp [hr]⟩)
  · exact .inl rfl

/-- Sampling changes the pending sample only. -/
theorem sampleNow_cases (s : State) :
    sampleNow s = s ∨ ∃ p, s.cst = .busy p ∧ p.sampled = none ∧
      sampleNow s = { s with cst := .busy { p with sampled := some s.now } } := by
  unfold sampleNow
  split
  · rename_i p hp
    split
    · exact .inr ⟨p, hp, ‹_›, rfl⟩
    · exact .inl rfl
  all_goals exact .inl rfl

end Sys2Proof.Machine
end

