-- ==== Sys2Proof/Laws/Exec.lean ====
section
/-! SUPPORT. Every command's meaning is a completion, and what a step can do. -/

namespace Sys2Proof.Machine

/-- The results each command writes, as its meaning gives them to `completing`. -/
def resultsOf (i : Instr) (p : Pending) (s : State) : State :=
  match i with
  | .nop => s
  | .extract start len =>
    setRes (loHalf (BitVec.ofNat 64 (fld p.snap.frame start.toNat len.toNat)))
      (hiHalf (BitVec.ofNat 64 (fld p.snap.frame start.toNat len.toNat))) s
  | .crcCheck =>
    setCrc p.snap.frame ⟨decide (crc24 p.snap.frame = 0), Config.noFlip, crc24 p.snap.frame⟩ s
  | .crcCorrect => setCrc (crcFix p.snap.frame).frame (fixInfo (crcFix p.snap.frame)) s
  | .decode =>
    if p.snap.frameLen.toNat ≠ Config.frameBits then setMsg (rejectMsg .len) s
    else
      setMsg (if (crcFix p.snap.frame).pass then
          dispatchFrame (crcFix p.snap.frame).frame (timestamp p s) else rejectMsg .crc)
        (setCrc (crcFix p.snap.frame).frame (fixInfo (crcFix p.snap.frame)) s)
  | .decId => setMsg (makeMsg .identification p.snap.frame (timestamp p s)) s
  | .gray3 g => setRes ((grayToBinary g).setWidth 32) 0 s
  | .alt12 alt => setRes (BitVec.ofInt 32 (altDecode alt).1) (altInfoWord (altDecode alt).2) s
  | .decPos => setMsg (makeMsg .airbornePosition p.snap.frame (timestamp p s)) s
  | .decVel => setMsg (makeMsg .velocity p.snap.frame (timestamp p s)) s
  | .posToSlot slot => setSlot slot (slotOfMsg p.snap.msg) s
  | .cprNl => setRes (BitVec.ofNat 32 (nlZones p.snap.nlLat)) 0 s
  | .cprResolve => setCpr (cprResolve p.snap.slot0 p.snap.slot1 p.snap.refLon) s

/-- Every meaning is the completion of its results. -/
theorem exec_eq_completing (i : Instr) (s : State) : exec i s = completing i s (resultsOf i) := by
  cases i <;> rfl

/-- A pending command whose operands are legal completes. -/
theorem exec_next {i : Instr} {s : State} {p : Pending} (hs : s.cst = .busy p)
    (ho : operandFault i p = none) : exec i s = .next (finish (resultsOf i p s)) := by
  rw [exec_eq_completing, completing_next hs ho]

/-- What a meaning can do at all. -/
theorem exec_cases {i : Instr} {s t : State} (h : exec i s = .next t) :
    ∃ p, s.cst = .busy p ∧
      ((operandFault i p = none ∧ t = finish (resultsOf i p s)) ∨
        ∃ code, operandFault i p = some code ∧ t = raiseFault code p.word s) :=
  completing_cases (exec_eq_completing i s ▸ h)

/-- The fields no command's results touch (R22, R23). -/
theorem resultsOf_keeps (i : Instr) (p : Pending) (s : State) :
    (resultsOf i p s).cst = s.cst ∧ (resultsOf i p s).done = s.done ∧
    (resultsOf i p s).lastop = s.lastop ∧ (resultsOf i p s).faultCode = s.faultCode ∧
    (resultsOf i p s).faultCmd = s.faultCmd ∧ (resultsOf i p s).frameLen = s.frameLen ∧
    (resultsOf i p s).frame = s.frame ∧ (resultsOf i p s).refLat = s.refLat ∧
    (resultsOf i p s).refLon = s.refLon ∧ (resultsOf i p s).nlLat = s.nlLat ∧
    (resultsOf i p s).now = s.now ∧ (resultsOf i p s).resetAsserted = s.resetAsserted ∧
    (resultsOf i p s).basePage = s.basePage ∧ (resultsOf i p s).events = s.events ∧
    (resultsOf i p s).response = s.response := by
  cases i <;> try simp [resultsOf]
  split <;> simp

/-- What the block's own step can do. -/
theorem blockStep_cases {s t : State} (h : blockStep s = .next t) :
    (t = s ∧ busyFlag s = false) ∨
      ∃ p i, s.cst = .busy p ∧ decode p.word = .ok i ∧ exec i s = .next t := by
  unfold blockStep at h
  split at h
  · rename_i p hp
    split at h
    · exact .inr ⟨p, _, hp, ‹_›, h⟩
    · cases h
  · cases h; exact .inl ⟨rfl, by simp [busyFlag, *]⟩
  · cases h; exact .inl ⟨rfl, by simp [busyFlag, *]⟩

/-- A step takes the first move of the schedule. -/
theorem step_cons {s : State} {e : Event} {rest : List Event} (h : s.events = e :: rest) :
    step s = takeEvent e { s with events := rest } := by
  simp only [step, advance, h]

/-- With no move left the step is the block's own. -/
theorem step_nil {s : State} (h : s.events = []) : step s = blockStep s := by
  simp only [step, advance, h]

/-- A pending command's own step is its meaning (R65). -/
theorem blockStep_busy {s : State} {p : Pending} {i : Instr} (hs : s.cst = .busy p)
    (hd : decode p.word = .ok i) : blockStep s = exec i s := by
  simp only [blockStep, hs, hd]

/-- What a step can do: the moves of R215, one at a time. -/
theorem step_cases {s t : State} (h : step s = .next t) :
    (s.events = [] ∧ blockStep s = .next t) ∨
    ∃ rest,
      (∃ addr size, s.events = .read addr size :: rest ∧
        hostRead addr size { s with events := rest } = .next t) ∨
      (∃ addr size v, s.events = .write addr size v :: rest ∧
        hostWrite addr size v { s with events := rest } = .next t) ∨
      (s.events = .complete :: rest ∧ blockStep { s with events := rest } = .next t) ∨
      (s.events = .sample :: rest ∧ t = sampleNow { s with events := rest }) ∨
      (∃ ms, s.events = .driveNow ms :: rest ∧ t = { s with events := rest, now := ms }) ∨
      (s.events = .assertReset :: rest ∧
        t = resetBlock { s with events := rest, resetAsserted := true }) ∨
      (s.events = .releaseReset :: rest ∧ t = { s with events := rest, resetAsserted := false }) := by
  unfold step advance at h
  cases he : s.events with
  | nil => simp only [he] at h; exact .inl ⟨rfl, h⟩
  | cons e rest =>
    simp only [he] at h
    refine .inr ⟨rest, ?_⟩
    cases e <;> simp only [takeEvent] at h
    · exact .inl ⟨_, _, rfl, h⟩
    · exact .inr (.inl ⟨_, _, _, rfl, h⟩)
    · exact .inr (.inr (.inl ⟨rfl, h⟩))
    · cases h; exact .inr (.inr (.inr (.inl ⟨rfl, rfl⟩)))
    · cases h; exact .inr (.inr (.inr (.inr (.inl ⟨_, rfl, rfl⟩))))
    · cases h; exact .inr (.inr (.inr (.inr (.inr (.inl ⟨rfl, rfl⟩)))))
    · cases h; exact .inr (.inr (.inr (.inr (.inr (.inr ⟨rfl, rfl⟩)))))

end Sys2Proof.Machine
end

