-- ==== Sys2Proof/Laws/Fields.lean ====
section
/-! SUPPORT. What the shared readers of a frame give: bit fields (R80), the trimmed name (R114), the CRC retry
(R93), and the dispatch by Type Code (R106). -/

namespace Sys2Proof.Machine

/-- A field of `n` bits is below `2^n` (R80). -/
theorem fld_lt (F : Frame) (a n : Nat) : fld F a n < 2 ^ n := by
  induction n with
  | zero => simp [fld]
  | succ n ih =>
    have hb : (frameBit F (a + n)).toNat ≤ 1 := by cases frameBit F (a + n) <;> simp
    simp only [fld, Nat.pow_succ]
    omega

/-- Bit `F{i}` by arithmetic (R12). -/
theorem frameBit_toNat (F : Frame) {i : Nat} (h : i < 112) :
    (frameBit F i).toNat = F.toNat / 2 ^ (111 - i) % 2 := by
  simp only [frameBit, BitVec.getMsbD, h, decide_true, Bool.true_and, BitVec.getLsbD,
    Nat.testBit_eq_decide_div_mod_eq]
  have : F.toNat / 2 ^ (112 - 1 - i) % 2 < 2 := Nat.mod_lt _ (by decide)
  rcases (by omega : F.toNat / 2 ^ (112 - 1 - i) % 2 = 0 ∨ F.toNat / 2 ^ (112 - 1 - i) % 2 = 1) with h | h <;>
    simp [h]

/-- A field inside the frame by arithmetic: the number `F` shifted down to the field's last bit (R12, R80). -/
theorem fld_eq_div_mod (F : Frame) (a n : Nat) (h : a + n ≤ 112) :
    fld F a n = F.toNat / 2 ^ (112 - (a + n)) % 2 ^ n := by
  induction n with
  | zero => simp [fld, Nat.mod_one]
  | succ n ih =>
    have hs : 112 - (a + n) = (112 - (a + (n + 1))) + 1 := by omega
    rw [fld, ih (by omega), frameBit_toNat F (by omega), hs, Nat.pow_succ 2 (112 - _),
      ← Nat.div_div_eq_div_mul, Nat.pow_succ, Nat.mul_comm (2 ^ n) 2, Nat.mod_mul]
    have : 111 - (a + n) = 112 - (a + (n + 1)) := by omega
    rw [this]
    omega

/-- The trimmed length: nothing but spaces from it on, and no space just before it (R114). -/
theorem trimmedLen_spec (ch : Nat → Byte) (n : Nat) :
    trimmedLen ch n ≤ n ∧ (0 < trimmedLen ch n → ch (trimmedLen ch n - 1) ≠ 0x20#8) ∧
      ∀ i, trimmedLen ch n ≤ i → i < n → ch i = 0x20#8 := by
  induction n with
  | zero => simp [trimmedLen]
  | succ n ih =>
    obtain ⟨hle, hne, hsp⟩ := ih
    by_cases h : ch n = 0x20#8
    · rw [trimmedLen, if_pos h]
      refine ⟨by omega, hne, fun i hi hn => ?_⟩
      rcases Nat.lt_succ_iff_lt_or_eq.1 hn with hlt | rfl
      · exact hsp i hi hlt
      · exact h
    · rw [trimmedLen, if_neg h]
      exact ⟨Nat.le_refl _, fun _ => by simpa using h, fun i hi hn => by omega⟩

/-- The three outcomes of the retry (R93, R94). -/
theorem crcFix_cases (F : Frame) :
    (crc24 F = 0 ∧ crcFix F = ⟨true, Config.noFlip, F, 0⟩) ∨
    (crc24 F ≠ 0 ∧ ∃ i, i < 112 ∧ crc24 (flipBit F i) = 0 ∧ (∀ k, k < i → crc24 (flipBit F k) ≠ 0) ∧
      crcFix F = ⟨true, BitVec.ofNat 7 i, flipBit F i, crc24 F⟩) ∨
    (crc24 F ≠ 0 ∧ (∀ k, k < 112 → crc24 (flipBit F k) ≠ 0) ∧ crcFix F = ⟨false, Config.noFlip, F, crc24 F⟩) := by
  by_cases h : crc24 F = 0
  · exact .inl ⟨h, by simp [crcFix, h]⟩
  · refine .inr ?_
    cases hf : (List.range Config.frameBits).find? (fun i => crc24 (flipBit F i) == 0) with
    | none =>
      refine .inr ⟨h, fun k hk => ?_, by simp only [crcFix, if_neg h, hf]⟩
      simpa using List.find?_eq_none.1 hf k (List.mem_range.2 hk)
    | some i =>
      refine .inl ⟨h, i, ?_, ?_, ?_, by simp only [crcFix, if_neg h, hf]⟩
      · exact List.mem_range.1 (List.mem_of_find?_eq_some hf)
      · simpa using List.find?_some hf
      · have := (List.find?_range_eq_some.1 hf).2.2
        exact fun k hk => by simpa using this k hk

/-- The kind the Type Code selects (R106). -/
theorem dispatch_cases (tc : Nat) :
    (dispatch tc = .identification ∧ 1 ≤ tc ∧ tc ≤ 4) ∨
    (dispatch tc = .airbornePosition ∧ 9 ≤ tc ∧ tc ≤ 18) ∨ (dispatch tc = .velocity ∧ tc = 19) ∨
    (dispatch tc = .noMessage ∧ (tc = 0 ∨ (5 ≤ tc ∧ tc ≤ 8) ∨ 20 ≤ tc)) := by
  unfold dispatch
  split
  · simp_all
  · split
    · simp_all
    · split
      · simp_all
      · simp only [reduceCtorEq, false_and, false_or, true_and]
        omega

end Sys2Proof.Machine
end

