-- ==== Sys2Proof/Laws/Float.lean ====
section
/-! SUPPORT. Binary64 encodings: the form rounding leaves is encoded and read back as itself (R15). -/

namespace Sys2Proof.Machine

/-- The three fields of a packed binary64 pattern. -/
theorem packed_fields (a : BitVec 1) (b : BitVec 11) (c : BitVec 52) :
    (a ++ b ++ c).getLsbD 63 = a.getLsbD 0 ∧ (a ++ b ++ c).extractLsb' 52 11 = b ∧
      (a ++ b ++ c).extractLsb' 0 52 = c := by
  refine ⟨?_, ?_, ?_⟩
  · rw [BitVec.getLsbD_append, BitVec.getLsbD_append]
    rfl
  · apply BitVec.eq_of_getLsbD_eq
    intro i hi
    rw [BitVec.getLsbD_extractLsb', BitVec.getLsbD_append, BitVec.getLsbD_append, decide_eq_true hi,
      if_neg (by omega), if_pos (by omega), Nat.add_sub_cancel_left, Bool.true_and]
  · apply BitVec.eq_of_getLsbD_eq
    intro i hi
    rw [BitVec.getLsbD_extractLsb', BitVec.getLsbD_append, decide_eq_true hi, Nat.zero_add, if_pos hi,
      Bool.true_and]

/-- What a pattern of a finite value stands for, from its three fields. -/
theorem ofBits_finite {d : DWord} {neg : Bool} {k f : Nat} (hs : d.getLsbD 63 = neg)
    (hx : (d.extractLsb' 52 11).toNat = k) (hf : (d.extractLsb' 0 52).toNat = f) (hk : k < 2047) :
    ofBits d = if k = 0 then .fin neg f (-1074) else .fin neg (2 ^ 52 + f) ((k : Int) - 1075) := by
  unfold ofBits
  simp only [hs, hx, hf]
  rw [if_neg (by omega)]

/-- A significand of 53 bits at a normal exponent, or of at most 52 at the least one, survives its encoding. -/
theorem ofBits_toBits_fin (neg : Bool) (m : Nat) (e : Int)
    (h : (m < 2 ^ 52 ∧ e = -1074) ∨ (2 ^ 52 ≤ m ∧ m < 2 ^ 53 ∧ -1074 ≤ e ∧ e ≤ 971)) :
    ofBits (toBits (.fin neg m e)) = .fin neg m e := by
  rcases h with ⟨hm, rfl⟩ | ⟨hlo, hhi, he, he'⟩
  · obtain ⟨hs, hx, hf⟩ := packed_fields (BitVec.ofBool neg) 0#11 (BitVec.ofNat 52 m)
    rw [toBits, if_pos hm]
    refine (ofBits_finite (k := 0) (f := m) (neg := neg) (hs.trans (by simp)) (by rw [hx]; rfl) ?_ (by decide)).trans
      (if_pos rfl)
    rw [hf, BitVec.toNat_ofNat, Nat.mod_eq_of_lt hm]
  · obtain ⟨hs, hx, hf⟩ :=
      packed_fields (BitVec.ofBool neg) (BitVec.ofNat 11 (e + 1075).toNat) (BitVec.ofNat 52 m)
    rw [toBits, if_neg (Nat.not_lt.2 hlo)]
    refine (ofBits_finite (k := (e + 1075).toNat) (f := m - 2 ^ 52) (neg := neg) (hs.trans (by simp)) ?_ ?_
      (by omega)).trans ((if_neg (by omega)).trans ?_)
    · rw [hx, BitVec.toNat_ofNat, Nat.mod_eq_of_lt (by omega)]
    · rw [hf, BitVec.toNat_ofNat, Nat.mod_eq_sub_mod hlo, Nat.mod_eq_of_lt (by omega)]
    · rw [show 2 ^ 52 + (m - 2 ^ 52) = m by omega, show (((e + 1075).toNat : Nat) : Int) - 1075 = e by omega]

/-- An infinity survives its encoding. -/
theorem ofBits_toBits_inf (neg : Bool) : ofBits (toBits (.inf neg)) = .inf neg := by
  cases neg <;> decide

end Sys2Proof.Machine
end

