-- ==== Sys2Proof/Laws/PerInstr.lean ====
section
/-! SUPPORT. The family Encoding: the word of every command meets its row of spec/opcode_table.json. -/

namespace Sys2Proof.Laws.Encoding

/-- The row's mask, as spec/opcode_table.json gives it. -/
def tableMask : Instr → Word
  | .extract _ _ => 0xFFC000FF#32
  | .gray3 _ => 0xFFFFF8FF#32
  | .alt12 _ => 0xFFF000FF#32
  | .posToSlot _ => 0xFFFFFEFF#32
  | .nop => 0xFFFFFFFF#32
  | .crcCheck => 0xFFFFFFFF#32
  | .crcCorrect => 0xFFFFFFFF#32
  | .decode => 0xFFFFFFFF#32
  | .decId => 0xFFFFFFFF#32
  | .decPos => 0xFFFFFFFF#32
  | .decVel => 0xFFFFFFFF#32
  | .cprNl => 0xFFFFFFFF#32
  | .cprResolve => 0xFFFFFFFF#32

/-- The row's match, as spec/opcode_table.json gives it. -/
def tableMatch : Instr → Word
  | .nop => 0x00000000#32
  | .extract _ _ => 0x00000001#32
  | .crcCheck => 0x00000002#32
  | .crcCorrect => 0x00000003#32
  | .decode => 0x00000004#32
  | .decId => 0x00000005#32
  | .gray3 _ => 0x00000006#32
  | .alt12 _ => 0x00000007#32
  | .decPos => 0x00000008#32
  | .decVel => 0x00000009#32
  | .posToSlot _ => 0x0000000A#32
  | .cprNl => 0x0000000B#32
  | .cprResolve => 0x0000000C#32

/-- The fixed bits of the encoded word are the row's. -/
def Statement (i : Instr) : Prop := encode i &&& tableMask i = tableMatch i

theorem nop : Statement .nop := by unfold Statement; decide
theorem extract (start len : BitVec 7) : Statement (.extract start len) := by
  simp only [Statement, encode, Instr.operandBits, Instr.opcode, tableMask, tableMatch]
  apply BitVec.eq_of_getLsbD_eq
  intro i hi
  interval_cases i <;> simp
theorem crcCheck : Statement .crcCheck := by unfold Statement; decide
theorem crcCorrect : Statement .crcCorrect := by unfold Statement; decide
theorem decode : Statement .decode := by unfold Statement; decide
theorem decId : Statement .decId := by unfold Statement; decide
theorem gray3 (g : BitVec 3) : Statement (.gray3 g) := by revert g; unfold Statement; decide
theorem alt12 (alt : BitVec 12) : Statement (.alt12 alt) := by
  simp only [Statement, encode, Instr.operandBits, Instr.opcode, tableMask, tableMatch]
  apply BitVec.eq_of_getLsbD_eq
  intro i hi
  interval_cases i <;> simp
theorem decPos : Statement .decPos := by unfold Statement; decide
theorem decVel : Statement .decVel := by unfold Statement; decide
theorem posToSlot (slot : BitVec 1) : Statement (.posToSlot slot) := by
  revert slot; unfold Statement; decide
theorem cprNl : Statement .cprNl := by unfold Statement; decide
theorem cprResolve : Statement .cprResolve := by unfold Statement; decide

end Sys2Proof.Laws.Encoding
end

