-- ==== Sys2Proof/Machine/Assembler.lean ====
section
/-! DEFINITION. The assembler syntax of R68 as moves of the schedule: a host program line becomes the host's
accesses. WAIT's loop becomes its end: the completion, then the read that sees BUSY = 0 (R231). -/

namespace Sys2Proof.Machine

/-- `WR reg, value` for a block placed at bus address `base` (R68). -/
def asmWr (base : Nat) (r : Reg) (v : Word) : List Event := [.write (base + regOffset r) 4 v]

/-- `RD reg` (R68). -/
def asmRd (base : Nat) (r : Reg) : List Event := [.read (base + regOffset r) 4]

/-- A command mnemonic alone: `WR CMD, word` (R68). -/
def asmCommand (base : Nat) (i : Instr) : List Event := asmWr base .cmd (encode i)

/-- `WAIT`: the last turn of the loop, after the completion (R68, R231). -/
def asmWait (base : Nat) : List Event := .complete :: asmRd base .status

/-- `WRFRAME h`: the four writes of the frame (R68). -/
def asmWrFrame (base : Nat) (F : Frame) : List Event :=
  asmWr base .frame0 (frameWord0 F) ++ asmWr base .frame1 (frameWord1 F)
    ++ asmWr base .frame2 (frameWord2 F) ++ asmWr base .frame3 (frameWord3 F)

/-- `WRF64 X, d`: the LO register, then the HI register (R68). -/
def asmWrF64 (base : Nat) (lo hi : Reg) (d : DWord) : List Event :=
  asmWr base lo (loHalf d) ++ asmWr base hi (hiHalf d)

end Sys2Proof.Machine
end

