-- ==== Sys2Proof/Tests/Slice0.lean ====
section
/-! SUPPORT. The model's own tests. Expected values come from the spec: its encodings (R61, R63, R68), its tables,
and the vectors of 95_test_vectors.md, named in each test. Then one witness for the hypotheses of each statement. -/

namespace Sys2Proof.Tests

open Sys2Proof.Machine Sys2Proof.Claims

set_option Elab.async false

/-! ## Well-formedness: an ill-formed term for each check -/

/-- LEN 65 with a field that ends inside the frame: only the width check refuses it. -/
theorem test_wf_len : (Instr.extract 0 65).wellFormed = false ∧ extractEndOk 0 65 = true := by decide
/-- START + LEN = 113: only the range check refuses it. -/
theorem test_wf_end : (Instr.extract 100 13).wellFormed = false ∧ extractLenOk 13 = true := by decide
/-- The last legal fields of R82. -/
theorem test_wf_legal : (Instr.extract 48 64).wellFormed = true ∧ (Instr.extract 112 0).wellFormed = true := by
  decide

/-! ## Decoding: words written out from R61 and R63 -/

theorem test_decode_nop : decode 0b0000000000000000000000_00_00000000#32 = .ok .nop := by decide
theorem test_decode_extract :
    decode 0b0000000000_0000101_0000000_00000001#32 = .ok (.extract 0 5) := by decide
theorem test_decode_extract_both :
    decode 0b0000000000_0011000_1011000_00000001#32 = .ok (.extract 88 24) := by decide
theorem test_decode_crcCheck : decode 0b000000000000000000000000_00000010#32 = .ok .crcCheck := by decide
theorem test_decode_crcCorrect : decode 0b000000000000000000000000_00000011#32 = .ok .crcCorrect := by decide
theorem test_decode_decode : decode 0b000000000000000000000000_00000100#32 = .ok .decode := by decide
theorem test_decode_decId : decode 0b000000000000000000000000_00000101#32 = .ok .decId := by decide
theorem test_decode_gray3 : decode 0b000000000000000000000_100_00000110#32 = .ok (.gray3 4) := by decide
theorem test_decode_alt12 :
    decode 0b000000000000_110000111000_00000111#32 = .ok (.alt12 0xC38) := by decide
theorem test_decode_decPos : decode 0b000000000000000000000000_00001000#32 = .ok .decPos := by decide
theorem test_decode_decVel : decode 0b000000000000000000000000_00001001#32 = .ok .decVel := by decide
theorem test_decode_posToSlot :
    decode 0b00000000000000000000000_1_00001010#32 = .ok (.posToSlot 1) := by decide
theorem test_decode_cprNl : decode 0b000000000000000000000000_00001011#32 = .ok .cprNl := by decide
theorem test_decode_cprResolve : decode 0b000000000000000000000000_00001100#32 = .ok .cprResolve := by decide
/-- R66: an unassigned opcode, a reserved bit of each format, and the two EXTRACT ranges. -/
theorem test_decode_refused :
    decode 0x0000000D#32 = .error .illegalOpcode ∧ decode 0x00000100#32 = .error .reservedBits ∧
    decode 0x00400001#32 = .error .reservedBits ∧ decode 0x00000806#32 = .error .reservedBits ∧
    decode 0x00100007#32 = .error .reservedBits ∧ decode 0x0000020A#32 = .error .reservedBits ∧
    decode 0x00208001#32 = .error .extractRange ∧ decode 0x0006E401#32 = .error .extractRange := by decide
/-- The table's first and last bits are the word's. -/
theorem test_decodeTableWord :
    decodeTableWord 32 0x10A = some (.posToSlot 1) ∧ decodeTableWord 32 (2 ^ 32) = none := by decide

/-! ## One step per command -/

/-- FID of 95_test_vectors.md section 2. -/
def frameId : Frame := 0x8D4840D6202CC371C32CE0576098#112
/-- FPE of section 2. -/
def framePos : Frame := 0x8D40621D58C382D690C8AC2863A7#112
/-- FV of section 2. -/
def frameVel : Frame := 0x8D485020994409940838175B284F#112

/-- The snapshot of a block whose FRAME is `F` and FRAME_LEN 112. -/
def snapOf (F : Frame) : Snapshot := { takeSnapshot State.reset with frame := F, frameLen := 112#8 }

/-- The command `i` pending on a snapshot, no sample taken yet. -/
def pendOf (i : Instr) (x : Snapshot) : Pending := ⟨encode i, x, none⟩

/-- The block with that command BUSY and NOW = 2000. -/
def busyOn (i : Instr) (x : Snapshot) : State :=
  { State.reset with cst := .busy (pendOf i x), lastop := i.opcode, now := 2000#64 }

/-- The state a step leaves, or the state itself where it stops. -/
def after (s : State) : State :=
  match step s with
  | .next t => t
  | .fault _ => s
  | .refused _ => s

/-- The registers `rs` after the command `i` has completed on the snapshot `x`. -/
def regsAfter (i : Instr) (x : Snapshot) (rs : List Reg) : List Word :=
  rs.map (readReg (after (busyOn i x)))

/-- Program 4: STATUS after a NOP. -/
theorem test_nop : regsAfter .nop (snapOf frameId) [.status, .res0] = [0x00000002#32, 0#32] := by decide +kernel
/-- XT4: the widest field. -/
theorem test_extract_64 :
    regsAfter (.extract 0 64) (snapOf frameId) [.res0, .res1] = [0x202CC371#32, 0x8D4840D6#32] := by decide +kernel
/-- XT6: a field that ends with the last parity bit. -/
theorem test_extract_parity :
    regsAfter (.extract 88 24) (snapOf frameId) [.res0, .status] = [0x00576098#32, 0x00000102#32] := by
  decide +kernel
/-- CRC1. -/
theorem test_crcCheck :
    regsAfter .crcCheck (snapOf frameId) [.crcInfo, .cframe3] = [0xFF000000#32, 0x60980000#32] := by
  decide +kernel
/-- CRC10's frame with CRC_CHECK. -/
theorem test_crcCheck_fails :
    regsAfter .crcCheck (snapOf 0x8D4840D6202CC371C32CE1576098#112) [.crcInfo, .cframe2]
      = [0x7FFFF409#32, 0xC32CE157#32] := by decide +kernel
/-- CRC6: the flip of bit 5. -/
theorem test_crcCorrect :
    regsAfter .crcCorrect (snapOf 0x894840D6202CC371C32CE0576098#112) [.crcInfo, .cframe0]
      = [0x859E31E9#32, 0x8D4840D6#32] := by decide +kernel
/-- CRC14: two inverted bits are uncorrectable. -/
theorem test_crcFix_two :
    crcFix 0x8D6840D6202CE371C32CE0576098#112 = ⟨false, 127, 0x8D6840D6202CE371C32CE0576098#112, 0x6A57EF⟩ := by
  decide +kernel
/-- DEC5: the Downlink Format is checked on the corrected frame. -/
theorem test_decode_corrected :
    regsAfter .decode (snapOf 0x854840D6202CC371C32CE0576098#112)
      [.msgKind, .msgIcao, .msgTcdf, .msgTsLo, .idName0, .idName1, .crcInfo]
      = [1#32, 0x004840D6#32, 0x00001104#32, 2000#32, 0x314D4C4B#32, 0x00333230#32, 0x84C397DB#32] := by
  decide +kernel
/-- DEC10: Type Code 5 is rejected. -/
theorem test_decode_tc5 :
    regsAfter .decode (snapOf 0x8DABCDEF280420C00000009FE4DA#112) [.msgKind, .msgIcao, .crcInfo]
      = [0x00000040#32, 0#32, 0xFF000000#32] := by decide +kernel
/-- ID2: trailing spaces are stripped. -/
theorem test_decId_trim :
    regsAfter .decId (snapOf 0x8DABCDEF080420F1CB38204C8336#112) [.idCat, .idNameLen, .idName0, .idName1]
      = [0#32, 6#32, 0x31434241#32, 0x00003332#32] := by decide +kernel
/-- ID4: category block of Type Code 3, all spaces. -/
theorem test_decId_empty :
    regsAfter .decId (snapOf 0x8DABCDEF1F820820820820EA73C9#112) [.idCat, .idNameLen, .idName0]
      = [0x00002717#32, 0#32, 0#32] := by decide +kernel
/-- R122's table at 4 and 7. -/
theorem test_gray3 :
    regsAfter (.gray3 4) (snapOf 0) [.res0, .res1] = [7#32, 0#32] ∧
    regsAfter (.gray3 7) (snapOf 0) [.res0] = [5#32] := by decide +kernel
/-- ALT1: the source's own example. -/
theorem test_alt12_25ft :
    regsAfter (.alt12 0x0D4) (snapOf 0) [.res0, .res1] = [0x000005DC#32, 0x06400004#32] := by decide +kernel
/-- ALT14: all four Gray groups at work. -/
theorem test_alt12_gillham :
    regsAfter (.alt12 0x0E5) (snapOf 0) [.res0, .res1] = [0x000069DC#32, 0x00053901#32] := by decide +kernel
/-- The even position frame of section 2. -/
theorem test_decPos :
    regsAfter .decPos (snapOf framePos)
      [.msgKind, .posFlags, .posAltRaw, .posAlt, .posAltInfo, .posLatCpr, .posLonCpr]
      = [2#32, 0#32, 0xC38#32, 0x9470#32, 0x61800004#32, 0x16B48#32, 0xC8AC#32] := by decide +kernel
/-- The velocity frame of section 2. -/
theorem test_decVel :
    regsAfter .decVel (snapOf frameVel)
      [.velSub, .velEw, .velNs, .velVr, .velSpeedLo, .velSpeedHi, .velHdgLo, .velHdgHi]
      = [1#32, 0xFFFFFFF8#32, 0xFFFFFF61#32, 0xFFFFFCC0#32, 0xA98B1840#32, 0x4063E66F#32,
         0x0D8BB39E#32, 0x4066DC2C#32] := by decide +kernel

/-- The slots and the reference of Program 3, with a position message in the record. -/
def pairSnap : Snapshot :=
  { snapOf framePos with
    slot0 := ⟨0, 93000, 51372, 2000⟩
    slot1 := ⟨1, 74158, 50194, 0⟩
    refLon := 0x400F5810624DD2F2#64
    nlLat := 0x404A20EC00000000#64
    msg := makeMsg .airbornePosition framePos 2000 }

/-- Program 3: the record goes to slot 1 and slot 0 stays. -/
theorem test_posToSlot :
    regsAfter (.posToSlot 1) pairSnap [.slot1F, .slot1Lat, .slot1Lon, .slot1TsLo, .slot0Lat]
      = [0#32, 0x16B48#32, 0xC8AC#32, 2000#32, 0#32] := by decide +kernel
/-- R161's example, and 59 at zero. -/
theorem test_cprNl :
    regsAfter .cprNl pairSnap [.res0, .res1] = [36#32, 0#32] ∧ nlZones 0x8000000000000000#64 = 59 := by
  decide +kernel
/-- R162: 2 zones at 87.0 and none at the next value above it. -/
theorem test_cprNl_edge : nlZones 0x4055C00000000000#64 = 2 ∧ nlZones 0xC055C00000000001#64 = 0 := by
  decide +kernel
/-- CPR1. -/
theorem test_cprResolve :
    regsAfter .cprResolve pairSnap [.cprStatus, .cprNl, .cprJ, .cprM, .cprLatHi, .cprLatLo, .cprLonHi, .cprLonLo]
      = [1#32, 36#32, 8#32, 0#32, 0x404A20EC#32, 0#32, 0x400F5AE0#32, 0#32] := by decide +kernel
/-- CPR8: 10,001 ms apart. -/
theorem test_cprResolve_stale :
    regsAfter .cprResolve { pairSnap with slot0 := ⟨0, 93000, 51372, 10001⟩ } [.cprStatus, .cprLatHi]
      = [0x00000020#32, 0#32] := by decide +kernel

/-- FLT: EXTRACT 100, 13 written to an IDLE block (Program 4). -/
theorem test_fault_entry :
    [Reg.status, .faultCode, .faultCmd].map
      (readReg (after { State.reset with events := [.write 0 4 0x0006E401#32] }))
      = [0x00000004#32, 3#32, 0x0006E401#32] := by decide +kernel
/-- Program 5: NOP written while DECODE is BUSY. -/
theorem test_overrun :
    [Reg.status, .faultCode, .msgKind].map
      (readReg (after { busyOn .decode (snapOf frameId) with events := [.write 0 4 0#32] }))
      = [0x00000404#32, 4#32, 0#32] := by decide +kernel

/-- R68 and R55: the lines of Program 1 as moves, for a block at 0x200. -/
theorem test_assembler :
    asmWrFrame 0x200 frameId ++ asmCommand 0x200 (.alt12 0x0D4) ++ asmWait 0x200
      = [.write 0x220 4 0x8D4840D6#32, .write 0x224 4 0x202CC371#32, .write 0x228 4 0xC32CE057#32,
         .write 0x22C 4 0x60980000#32, .write 0x200 4 0x0000D407#32, .complete, .read 0x204 4] ∧
    asmWrF64 0 .refLonLo .refLonHi 0x400F5810624DD2F2#64
      = [.write 0x108 4 0x624DD2F2#32, .write 0x10C 4 0x400F5810#32] := by decide +kernel

/-! ## Witnesses: a concrete state and operands that meet the hypotheses of each statement together, and a case for
each clause at the boundary of its range. `wit_<Name>` belongs to `Obligations.<Name>`. A statement whose one
hypothesis is a pending command has `wit_busy`. -/

/-- The reset state with one move to come. -/
def withEvent (e : Event) : State := { State.reset with events := [e] }
/-- A FAULTED block with one move to come. -/
def faultedWith (e : Event) : State := { raiseFault .illegalOpcode 0x0D#32 State.reset with events := [e] }
/-- A pending command has a next state where acceptance let its operands through. -/
theorem completes_on (i : Instr) (x : Snapshot) (h : operandFault i (pendOf i x) = none) :
    ∃ t, exec i (busyOn i x) = .next t := ⟨_, exec_next rfl h⟩

/-- The one hypothesis of CrcCheckResult, DecIdFields and Gray3Table, for any command and snapshot, and a
hypothesis of every other statement on a pending command. -/
theorem wit_busy (i : Instr) (x : Snapshot) : (busyOn i x).cst = .busy (pendOf i x) := rfl

theorem wit_DecodeOfEncode :
    (Instr.extract 48 64).wellFormed = true ∧ (Instr.extract 112 0).wellFormed = true ∧
    (Instr.alt12 0xFFF).wellFormed = true := by decide
theorem wit_EveryWordIsCommandOrFault :
    State.reset.cst = .idle ∧ decode 0x0000000C#32 = .ok .cprResolve ∧
    (hostCommand 0x0000000D#32 State.reset).cst = .faulted := by decide
/-- The host's CMD write in each state of the block and at the edge of each check. -/
theorem wit_CommandWriteChecks :
    (withEvent (.write 0 4 0x0D#32)).resetAsserted = false ∧
    (withEvent (.write 0 4 0x0D#32)).events = .write (baseAddress State.reset) 4 0x0D#32 :: [] ∧
    (faultedWith (.write 0 4 0x00#32)).cst = .faulted ∧
    (after (withEvent (.write 0 4 0x0000000D#32))).faultCode = .illegalOpcode ∧
    (after (withEvent (.write 0 4 0x00400001#32))).faultCode = .reservedBits ∧
    (after (withEvent (.write 0 4 0x00208001#32))).faultCode = .extractRange ∧
    (after (withEvent (.write 0 4 0x00203101#32))).faultCode = .extractRange ∧
    (after (withEvent (.write 0 4 0x0000000A#32))).faultCode = .slotSource ∧
    (after (withEvent (.write 0 4 0x00203001#32))).faultCode = .noFault := by decide +kernel
theorem wit_FaultedUntilReset :
    (faultedWith (.write 0 4 0x04#32)).cst = .faulted ∧
    (∃ t, step (faultedWith (.write 0 4 0x04#32)) = .next t) ∧
    (∃ t, step (faultedWith .assertReset) = .next t ∧ t.cst = .idle) := ⟨rfl, ⟨_, rfl⟩, _, rfl, rfl⟩
theorem wit_ResetValuesFromAnyState : (faultedWith .assertReset).events = .assertReset :: [] := rfl
/-- The first and the last register of the map. -/
theorem wit_ReadReturnsRegister :
    (withEvent (.read 0x000 4)).resetAsserted = false ∧
    (withEvent (.read 0x000 4)).events = .read (baseAddress State.reset + regOffset .cmd) 4 :: [] ∧
    (withEvent (.read 0x13C 4)).events = .read (baseAddress State.reset + regOffset .cprLonHi) 4 :: [] := by decide
/-- The first and the last reserved offset. -/
theorem wit_ReservedOffsets :
    writableMask .slot1F = some 0x00000001#32 ∧
    (∀ r : Reg, regOffset r ≠ 4 * 5) ∧ (∀ r : Reg, regOffset r ≠ 4 * 127) ∧
    (withEvent (.read 0x014 4)).events = .read (baseAddress State.reset + 4 * 5) 4 :: [] ∧
    (withEvent (.write 0x1FC 4 7#32)).events = .write (baseAddress State.reset + 4 * 127) 4 7#32 :: [] :=
  ⟨rfl, fun r => by cases r <;> decide, fun r => by cases r <;> decide, rfl, rfl⟩
theorem wit_InputWriteStoresWritableBits :
    (withEvent (.write 0x02C 4 0x60989999#32)).resetAsserted = false ∧ writableMask .frame3 = some 0xFFFF0000#32 ∧
    (withEvent (.write 0x02C 4 0x60989999#32)).events
      = .write (baseAddress State.reset + regOffset .frame3) 4 0x60989999#32 :: [] := by decide
theorem wit_ReadOnlyWriteIgnored :
    Reg.status ≠ .cmd ∧ writableMask .status = none ∧
    (withEvent (.write 0x004 4 7#32)).events = .write (baseAddress State.reset + regOffset .status) 4 7#32 :: [] := by
  decide
/-- A narrow access, an unaligned one, the first address past the space, and the last answered one. -/
theorem wit_BusErrorsExactly :
    (withEvent (.write 0x020 1 0#32)).resetAsserted = false ∧
    step (withEvent (.write 0x020 1 0#32)) = .fault .busError ∧
    step (withEvent (.read 0x022 4)) = .fault .busError ∧
    step (withEvent (.read 0x200 4)) = .fault .busError ∧
    ∃ t, step (withEvent (.read 0x1FC 4)) = .next t := ⟨rfl, rfl, rfl, rfl, _, rfl⟩
/-- The placed command, with no move left and with its completion next. -/
theorem wit_StepRunsPendingCommand :
    (busyOn .nop (snapOf 0)).cst = .busy (pendOf .nop (snapOf 0)) ∧
    decode (pendOf .nop (snapOf 0)).word = .ok .nop ∧ (busyOn .nop (snapOf 0)).events = [] ∧
    { busyOn .nop (snapOf 0) with events := [.complete] }.events = .complete :: [] := by decide
/-- One case for each guard. -/
theorem wit_ModelGuards :
    (withEvent .complete).cst = .idle ∧ (faultedWith .complete).cst = .faulted ∧
    64 < (65#7).toNat ∧ 112 < (49#7).toNat + (64#7).toNat ∧
    (pendOf (.posToSlot 0) (snapOf 0)).snap.msg.kind ≠ .airbornePosition ∧
    { withEvent (.read 0 4) with resetAsserted := true }.resetAsserted = true := by decide
theorem wit_CommandsCompleteWithFrame :
    (busyOn (.posToSlot 1) pairSnap).cst = .busy (pendOf (.posToSlot 1) pairSnap) ∧
    (Instr.posToSlot 1).wellFormed = true ∧
    (pendOf (.posToSlot 1) pairSnap).snap.msg.kind = .airbornePosition ∧
    (Instr.extract 48 64).wellFormed = true := by decide
theorem wit_AcceptedCommandsComplete :
    legalState (after (withEvent (.write 0 4 0x0B#32))) = true ∧
    busyFlag (after (withEvent (.write 0 4 0x0B#32))) = true ∧
    (after (withEvent (.write 0 4 0x0B#32))).events = [] := by decide +kernel
/-- A result register no host writes, and a slot that POS_TO_SLOT writes while the host writes it too. -/
theorem wit_RunningCommandIgnoresInputWrites :
    Reg.frame0 ≠ .cmd ∧ (∃ t, exec .crcCheck (busyOn .crcCheck (snapOf frameId)) = .next t) ∧
    writableMask .crcInfo = none ∧ Reg.slot1F ≠ .cmd ∧ .slot1F ∈ writtenRegs (.posToSlot 1) ∧
    ∃ t, exec (.posToSlot 1) (busyOn (.posToSlot 1) pairSnap) = .next t ∧ t.cst = .idle :=
  ⟨by decide, completes_on _ _ (by decide), rfl, by decide, by decide, _, exec_next rfl (by decide), rfl⟩
theorem wit_StepsKeepLegalState :
    legalState (withEvent (.write 0 4 0x04#32)) = true ∧
    ∃ t, step (withEvent (.write 0 4 0x04#32)) = .next t := ⟨by decide +kernel, _, rfl⟩
/-- A completion that stamps a message, all bounds met with equality. -/
theorem wit_SamplesStayWithinNow :
    nowMonotone (busyOn .decId (snapOf frameId)).now (busyOn .decId (snapOf frameId)).events = true ∧
    samplesWithin 2000 (busyOn .decId (snapOf frameId)) ∧
    (∃ t, step (busyOn .decId (snapOf frameId)) = .next t) ∧
    (after (busyOn .decId (snapOf frameId))).msg.kind = .identification := by
  refine ⟨rfl, ⟨by decide, ?_⟩, ⟨_, rfl⟩, by decide +kernel⟩
  intro p hp t ht
  cases hp
  cases ht
theorem wit_SampleTakenOnce :
    { busyOn .decVel (snapOf frameVel) with events := [.sample] }.cst = .busy (pendOf .decVel (snapOf frameVel)) ∧
    { busyOn .decVel (snapOf frameVel) with events := [.sample] }.events = .sample :: [] := by decide
theorem wit_OnlyPlatformDrivesNow :
    (∃ t, step (withEvent (.driveNow 5#64)) = .next t) ∧ ∃ t, step (withEvent .sample) = .next t :=
  ⟨⟨_, rfl⟩, _, rfl⟩
/-- The same pending DECODE in two blocks whose other registers differ. -/
theorem wit_ResultsDependOnSnapshotOnly :
    { busyOn .decode (snapOf frameId) with res0 := 1#32 }.cst = .busy (pendOf .decode (snapOf frameId)) ∧
    (busyOn .decode (snapOf frameId)).now = { busyOn .decode (snapOf frameId) with res0 := 1#32 }.now ∧
    (pendOf .decode (snapOf frameId)).snap.frameLen = 112#8 ∧
    (∃ t, exec .decode (busyOn .decode (snapOf frameId)) = .next t) ∧
    ∃ t, exec .decode { busyOn .decode (snapOf frameId) with res0 := 1#32 } = .next t :=
  ⟨rfl, rfl, rfl, completes_on _ _ (by decide), _, exec_next rfl (by decide)⟩
theorem wit_PlacedCommandRunsNext :
    decodeTableWord 32 0x10A = some (.posToSlot 1) ∧ decodeTableWord 32 0x00203001 = some (.extract 48 64) := by
  decide
/-- The widest field at the end of the frame, and the empty field there. -/
theorem wit_ExtractReadsField :
    (64#7).toNat ≤ 64 ∧ (48#7).toNat + (64#7).toNat ≤ 112 ∧ (112#7).toNat + (0#7).toNat ≤ 112 := by decide
/-- The three outcomes: CRC2, CRC4, CRC14. -/
theorem wit_CrcCorrectThreeOutcomes :
    crc24 frameId = 0 ∧ crcFix (frameId ^^^ unitFrame 0) = ⟨true, 0, frameId, 0x3935EA⟩ ∧
    (crcFix 0x8D6840D6202CE371C32CE0576098#112).pass = false :=
  ⟨by decide +kernel, by decide +kernel, by rw [test_crcFix_two]⟩
theorem wit_CrcIsLinear : crc24 frameId = 0 ∧ ∀ i ∈ [0, 111], i < 112 := by decide +kernel
theorem wit_SingleErrorsCorrectedBack :
    crc24 frameId = 0 ∧ (111 : Nat) < 112 ∧
    (pendOf .crcCorrect (snapOf (frameId ^^^ unitFrame 111))).snap.frame = frameId ^^^ unitFrame 111 := by
  decide +kernel
theorem wit_DoubleAndTripleErrorsUncorrectable :
    crc24 frameId = 0 ∧
    (pendOf .crcCorrect (snapOf (frameId ^^^ (unitFrame 0 ^^^ unitFrame 111)))).snap.frame
      = frameId ^^^ (unitFrame 0 ^^^ unitFrame 111) ∧
    (pendOf .crcCorrect (snapOf (frameId ^^^ (unitFrame 0 ^^^ unitFrame 1 ^^^ unitFrame 111)))).snap.frame
      = frameId ^^^ (unitFrame 0 ^^^ unitFrame 1 ^^^ unitFrame 111) := by decide +kernel
/-- A frame for each outcome: DEC8, DEC7, DEC9, DEC11, DEC10, DEC12, and the three kinds of message. -/
theorem wit_DecodeChecksInOrder :
    ({ snapOf frameId with frameLen := 111#8 } : Snapshot).frameLen ≠ 112#8 ∧
    (crcFix 0x8D6840D6202CE371C32CE0576098#112).pass = false ∧
    fieldOf (crcFix 0x95ABCDEF220420C0000000805ACC#112).frame 0 5 = 18 ∧
    fieldOf (crcFix 0x8DABCDEF000420C00000000C3109#112).frame 32 5 = 0 ∧
    fieldOf (crcFix 0x8DABCDEF280420C00000009FE4DA#112).frame 32 5 = 5 ∧
    fieldOf (crcFix 0x8DABCDEFA00420C0000000437A5E#112).frame 32 5 = 20 ∧
    fieldOf (crcFix frameId).frame 32 5 = 4 ∧ fieldOf (crcFix framePos).frame 32 5 = 11 ∧
    fieldOf (crcFix frameVel).frame 32 5 = 19 := by
  rw [test_crcFix_two]
  decide +kernel
theorem wit_PassingFrameNeverRejectedForCrc :
    (pendOf .decode (snapOf frameId)).snap.frameLen = 112#8 ∧
    crc24 (pendOf .decode (snapOf frameId)).snap.frame = 0 := by decide +kernel
theorem wit_DecodeUndoesOneFlip :
    crc24 frameId = 0 ∧ (pendOf .decode (snapOf frameId)).snap.frame = frameId ∧
    (pendOf .decode (snapOf (frameId ^^^ unitFrame 4))).snap.frame = frameId ^^^ unitFrame 4 ∧
    (pendOf .decode (snapOf (frameId ^^^ unitFrame 4))).snap.frameLen = 112#8 := by decide +kernel
/-- A successful DECODE of each kind, and its decoder pending on the corrected frame. -/
theorem wit_DecodeAgreesWithItsDecoder :
    (∃ t, exec .decode (busyOn .decode (snapOf frameId)) = .next t) ∧
    (after (busyOn .decode (snapOf frameId))).msg.kind = .identification ∧
    (after (busyOn .decode (snapOf frameId))).cframe = (pendOf .decId (snapOf frameId)).snap.frame ∧
    (after (busyOn .decode (snapOf framePos))).msg.kind = .airbornePosition ∧
    (after (busyOn .decode (snapOf frameVel))).msg.kind = .velocity :=
  ⟨completes_on _ _ (by decide), by decide +kernel, by decide +kernel, by decide +kernel, by decide +kernel⟩
theorem wit_DecodersWriteHeader :
    (busyOn .decPos (snapOf framePos)).cst = .busy (pendOf .decPos (snapOf framePos)) ∧
    (∃ t, exec .decPos (busyOn .decPos (snapOf framePos)) = .next t) := ⟨rfl, completes_on _ _ (by decide)⟩
/-- The lowest and the highest count of the 25 ft path. -/
theorem wit_Alt12BinaryPath : altBit (0x010#12).toNat 4 = 1 ∧ altBit (0xFFF#12).toNat 4 = 1 := by decide
/-- A field for each clause: both groups zero, each invalid 100 ft code, the lowest and the highest altitude. -/
theorem wit_Alt12GillhamPath :
    altBit 0x000 4 = 0 ∧ n500Of 0x000 = 0 ∧ n100Of 0x000 = 0 ∧ n100Of 0x040 = 0 ∧ n500Of 0x040 = 56 ∧
    n100Of 0x020 = 7 ∧ altBit 0x025 4 = 0 ∧ n100Of 0x025 = 5 ∧ n500Of 0x025 = 0 ∧
    altBit 0xC64 4 = 0 ∧ n500Of 0xC64 = 255 ∧ n100Of 0xC64 = 4 := by decide
theorem wit_DecPosFields :
    ∃ t, exec (.alt12 (BitVec.ofNat 12 (fieldOf framePos 40 12)))
      (busyOn (.alt12 (BitVec.ofNat 12 (fieldOf framePos 40 12))) (snapOf 0)) = .next t :=
  completes_on _ _ (by simp [operandFault, Instr.wellFormed, sourceFault])
/-- Subtypes 1 and 2 (VEL1, VEL10) and a subtype that is not decoded (VEL11). -/
theorem wit_DecVelComponents :
    fieldOf frameVel 37 3 = 1 ∧ fieldOf 0x8DABCDEF9A000480800C00B4D9F1#112 37 3 = 2 ∧
    fieldOf 0x8DABCDEF9B0032064014003AAAF0#112 37 3 = 3 := by decide
theorem wit_DecVelSpeedAndHeading :
    fieldOf (pendOf .decVel (snapOf frameVel)).snap.frame 37 3 = 1 := by decide
theorem wit_SpeedCorrectlyRounded : |(-1022 : Int)| ≤ 1022 ∧ |(1022 : Int)| ≤ 1022 := by decide
theorem wit_HeadingEnclosureHoldsAngle : ¬((-1 : Int) = 0 ∧ (0 : Int) = 0) := by decide
/-- Both ends round alike in each quadrant's corner and beside the axes. -/
theorem wit_HeadingNearestWhenDecided :
    rn (headingEnclosure (-1022) 1022).lo = rn (headingEnclosure (-1022) 1022).hi ∧
    rn (headingEnclosure 1 (-1022)).lo = rn (headingEnclosure 1 (-1022)).hi ∧
    rn (headingEnclosure (-1) 1022).lo = rn (headingEnclosure (-1) 1022).hi := by decide +kernel
theorem wit_HeadingInRange : |(-1 : Int)| ≤ 1022 ∧ |(1022 : Int)| ≤ 1022 := by decide
/-- 2^53 + 1 lies half way between two neighbours, and rounds to the one with the even significand. -/
theorem wit_RoundingIsNearestEven :
    |((2 ^ 53 + 1 : Int) : ℚ)| < 2 ^ 1024 - 2 ^ 970 ∧ isFinite (ofBits 0x4340000000000001#64) = true ∧
    value (ofBits 0x4340000000000001#64) ≠ value (rn ((2 ^ 53 + 1 : Int) : ℚ)) ∧
    |value (ofBits 0x4340000000000001#64) - ((2 ^ 53 + 1 : Int) : ℚ)|
      = |value (rn ((2 ^ 53 + 1 : Int) : ℚ)) - ((2 ^ 53 + 1 : Int) : ℚ)| := by decide +kernel
/-- The least subnormal, the greatest finite value and an infinity. -/
theorem wit_Binary64RoundTrip :
    ofBits 0x0000000000000001#64 ≠ .nan ∧ ofBits 0x7FEFFFFFFFFFFFFF#64 ≠ .nan ∧
    ofBits 0xFFF0000000000000#64 ≠ .nan := by decide
theorem wit_PosToSlotCopies : (pendOf (.posToSlot 1) pairSnap).snap.msg.kind = .airbornePosition := rfl
/-- Zero, the first and the last magnitude with zones, the first above 87 degrees. -/
theorem wit_CprNlByTable :
    (0x8000000000000000#64).toNat % 2 ^ 63 = 0 ∧ 0 < (0x8000000000000001#64).toNat % 2 ^ 63 ∧
    (0xC055C00000000000#64).toNat % 2 ^ 63 ≤ 0x4055C00000000000 ∧
    0x4055C00000000000 < (0xC055C00000000001#64).toNat % 2 ^ 63 := by decide
/-- Equal parities (reset), 10,000 ms and 10,001 ms apart. -/
theorem wit_CprPreconditions :
    (snapOf 0).slot0.f = (snapOf 0).slot1.f ∧ pairSnap.slot0.f ≠ pairSnap.slot1.f ∧
    ¬10000 < |((10000#64).toNat : Int) - pairSnap.slot1.ts.toNat| ∧
    10000 < |((10001#64).toNat : Int) - pairSnap.slot1.ts.toNat| := by decide
/-- Program 3's pair and the same pair exchanged. -/
def swappedSnap : Snapshot := { pairSnap with slot0 := pairSnap.slot1, slot1 := pairSnap.slot0 }
theorem wit_CprSlotsInterchangeable :
    swappedSnap.slot0 = pairSnap.slot1 ∧ swappedSnap.slot1 = pairSnap.slot0 ∧
    swappedSnap.refLon = pairSnap.refLon := by decide
/-- A valid pair inside the bound on the reference (CPR1), one with no zone (CPR12), one with a reference that is no
number (CPR10). -/
theorem wit_CprValidity :
    pairSnap.slot0.f ≠ pairSnap.slot1.f ∧ |(pairSnap.slot0.ts.toNat : Int) - pairSnap.slot1.ts.toNat| ≤ 10000 ∧
    (cprResolve pairSnap.slot0 pairSnap.slot1 pairSnap.refLon).nl = 36 ∧
    isFinite (ofBits pairSnap.refLon) = true ∧ |value (ofBits pairSnap.refLon)| ≤ 2 ^ 1023 ∧
    |value (ofBits 0x7FE0000000000000#64)| = 2 ^ 1023 ∧
    (cprResolve pairSnap.slot0 pairSnap.slot1 pairSnap.refLon).valid = true ∧
    (cprResolve ⟨0, 39322, 0, 1⟩ ⟨1, 5243, 0, 0⟩ 0).reason = .nl ∧
    isFinite (ofBits 0x7FF8000000000000#64) = false ∧
    (cprResolve pairSnap.slot0 pairSnap.slot1 0x7FF8000000000000#64).reason = .ref := by decide +kernel
/-- Inside the window: even selected (CPR1), odd selected at equal timestamps (CPR4), a southern even latitude that
360 is taken off, a latitude without zones (CPR12). -/
theorem wit_CprLatitudeSelected :
    pairSnap.slot0.f = 0 ∧ pairSnap.slot1.f = 1 ∧ |(2000 : Int) - 0| ≤ 10000 ∧
    (cprResolve pairSnap.slot0 pairSnap.slot1 pairSnap.refLon).used = 0 ∧
    (cprResolve ⟨0, 93000, 51372, 5⟩ ⟨1, 74158, 50194, 5⟩ pairSnap.refLon).used = 1 ∧
    (cprResolve ⟨0, 131071, 0, 1⟩ ⟨1, 131071, 0, 0⟩ 0).valid = true ∧
    value (ofBits (cprResolve ⟨0, 131071, 0, 1⟩ ⟨1, 131071, 0, 0⟩ 0).lat) < 0 ∧
    (cprResolve ⟨0, 39322, 0, 1⟩ ⟨1, 5243, 0, 0⟩ 0).j = 15 := by decide +kernel
/-- The wrap upward (CPR13), no wrap (CPR1), and the greatest finite reference, for which the moved longitude of this
pair is infinite. -/
theorem wit_CprLongitudeResolved :
    (cprResolve pairSnap.slot0 pairSnap.slot1 0x4066FCCCCCCCCCCD#64).valid = true ∧
    value (ofBits (cprResolve pairSnap.slot0 pairSnap.slot1 0x4066FCCCCCCCCCCD#64).lon) < 0 ∧
    0 < value (ofBits (cprResolve pairSnap.slot0 pairSnap.slot1 pairSnap.refLon).lon) ∧
    isFinite (ofBits 0x7FEFFFFFFFFFFFFF#64) = true ∧
    (cprResolve ⟨0, 0, 0, 1⟩ ⟨1, 0, 0, 0⟩ 0x7FEFFFFFFFFFFFFF#64).nl = 59 ∧
    (cprResolve ⟨0, 0, 0, 1⟩ ⟨1, 0, 0, 0⟩ 0x7FEFFFFFFFFFFFFF#64).valid = false := by decide +kernel
theorem wit_CprPositionInRange :
    (∃ t, exec .cprResolve (busyOn .cprResolve pairSnap) = .next t) ∧
    (after (busyOn .cprResolve pairSnap)).cpr.valid = true :=
  ⟨completes_on _ _ (by decide), by decide +kernel⟩

end Sys2Proof.Tests
end

section
/-! What every step keeps of the platform's own fields: BASE always, NOW but for the platform's move (R11, R218). -/

namespace Sys2Proof.Proofs

open Sys2Proof.Machine Sys2Proof.Claims

/-- BASE and NOW, which only the platform drives, are the same in both states. -/
def SamePlatform (s t : State) : Prop := t.basePage = s.basePage ∧ t.now = s.now

/-- A host write changes registers only (R51, R64). -/
theorem writeOffset_samePlatform (s : State) (off : Nat) (v : Word) :
    SamePlatform s (writeOffset s off v) := by
  rcases writeOffset_cases s off v with h | ⟨r, -, h⟩ | h <;> rw [h]
  · exact ⟨rfl, rfl⟩
  · exact ⟨writeInput_basePage s v r, writeInput_now s v r⟩
  · have hk := hostCommand_keeps v s
    exact ⟨by simp only [hk], by simp only [hk]⟩

/-- A completion writes results, or raises a fault (R65). -/
theorem exec_samePlatform {i : Instr} {s t : State} (h : exec i s = .next t) : SamePlatform s t := by
  obtain ⟨p, -, ⟨-, rfl⟩ | ⟨code, -, rfl⟩⟩ := exec_cases h
  · have hk := resultsOf_keeps i p s
    exact ⟨by simp only [finish_basePage, hk], by simp only [finish_now, hk]⟩
  · exact ⟨raiseFault_basePage code p.word s, raiseFault_now code p.word s⟩

theorem blockStep_samePlatform {s t : State} (h : blockStep s = .next t) : SamePlatform s t := by
  obtain ⟨rfl, -⟩ | ⟨p, i, -, -, hexec⟩ := blockStep_cases h
  · exact ⟨rfl, rfl⟩
  · exact exec_samePlatform hexec

theorem sampleNow_samePlatform (s : State) : SamePlatform s (sampleNow s) := by
  rcases sampleNow_cases s with h | ⟨p, -, -, h⟩ <;> rw [h] <;> exact ⟨rfl, rfl⟩

/-- A step keeps both fields, or it is the platform's move of NOW, which keeps BASE. -/
theorem step_samePlatform_or_driveNow {s t : State} (h : step s = .next t) :
    SamePlatform s t ∨
      ∃ ms rest, s.events = .driveNow ms :: rest ∧ t = { s with events := rest, now := ms } := by
  rcases step_cases h with ⟨-, hb⟩ | ⟨rest, ⟨addr, size, -, hr⟩ | ⟨addr, size, v, -, hw⟩ | ⟨-, hb⟩ |
    ⟨-, rfl⟩ | ⟨ms, he, rfl⟩ | ⟨-, rfl⟩ | ⟨-, rfl⟩⟩
  · exact .inl (blockStep_samePlatform hb)
  · obtain ⟨-, off, -, rfl⟩ := hostRead_cases hr
    exact .inl ⟨rfl, rfl⟩
  · obtain ⟨-, off, -, rfl⟩ := hostWrite_cases hw
    exact .inl (writeOffset_samePlatform { s with events := rest } off v)
  · exact .inl (blockStep_samePlatform (s := { s with events := rest }) hb)
  · exact .inl (sampleNow_samePlatform { s with events := rest })
  · exact .inr ⟨ms, rest, he, rfl⟩
  · exact .inl ⟨rfl, rfl⟩
  · exact .inl ⟨rfl, rfl⟩

/-- Settles O24, from what one step can do to BASE and NOW. -/
theorem onlyPlatformDrivesNow : Obligations.OnlyPlatformDrivesNow := by
  intro s t h
  obtain ⟨hbase, hnow⟩ | ⟨ms, rest, he, rfl⟩ := step_samePlatform_or_driveNow h
  · exact ⟨hbase, .inl hnow⟩
  · exact ⟨rfl, .inr ⟨ms, rest, he, rfl⟩⟩

end Sys2Proof.Proofs
end

section
/-! The binary64 interchange format, from the pattern to the value and back (R15). -/

namespace Sys2Proof.Proofs

open Sys2Proof.Machine Sys2Proof.Claims

/-- A binary64 pattern is its sign bit, exponent field and fraction field. -/
theorem packed_of_fields (d : DWord) :
    BitVec.ofBool (d.getLsbD 63) ++ d.extractLsb' 52 11 ++ d.extractLsb' 0 52 = d := by
  apply BitVec.eq_of_getLsbD_eq
  intro i hi
  rw [BitVec.getLsbD_append, BitVec.getLsbD_append]
  rcases (by omega : i < 52 ∨ (52 ≤ i ∧ i < 63) ∨ i = 63) with h | ⟨hlo, hhi⟩ | rfl
  · simp [h]
  · simp [show ¬ i < 52 by omega, show i - 52 < 11 by omega, show 52 + (i - 52) = i by omega]
  · simp

/-- What every pattern stands for, by its exponent and fraction fields. -/
theorem ofBits_cases (d : DWord) :
    (d.extractLsb' 52 11 = 2047#11 ∧ d.extractLsb' 0 52 = 0#52 ∧ ofBits d = .inf (d.getLsbD 63)) ∨
    (d.extractLsb' 52 11 = 2047#11 ∧ ofBits d = .nan) ∨
    (d.extractLsb' 52 11 = 0#11 ∧ ofBits d = .fin (d.getLsbD 63) (d.extractLsb' 0 52).toNat (-1074)) ∨
    ((d.extractLsb' 52 11).toNat < 2047 ∧ 0 < (d.extractLsb' 52 11).toNat ∧
      ofBits d = .fin (d.getLsbD 63) (2 ^ 52 + (d.extractLsb' 0 52).toNat)
        (((d.extractLsb' 52 11).toNat : Int) - 1075)) := by
  by_cases hinf : d.extractLsb' 52 11 = 2047#11
  · by_cases hfrac : d.extractLsb' 0 52 = 0#52
    · exact .inl ⟨hinf, hfrac, by simp [ofBits, hinf, hfrac]⟩
    · have hne : (d.extractLsb' 0 52).toNat ≠ 0 := fun h => hfrac (BitVec.eq_of_toNat_eq (by simpa using h))
      exact .inr (.inl ⟨hinf, by simp only [ofBits, hinf]; rw [if_pos (by decide), if_neg hne]⟩)
  · have hlt : (d.extractLsb' 52 11).toNat < 2047 := by
      have := (d.extractLsb' 52 11).isLt
      have : (d.extractLsb' 52 11).toNat ≠ 2047 := fun h => hinf (BitVec.eq_of_toNat_eq h)
      omega
    have hfin := ofBits_finite (d := d) rfl rfl rfl hlt
    by_cases hzero : (d.extractLsb' 52 11).toNat = 0
    · exact .inr (.inr (.inl ⟨BitVec.eq_of_toNat_eq (by simpa using hzero), by rw [hfin, if_pos hzero]⟩))
    · exact .inr (.inr (.inr ⟨hlt, Nat.pos_of_ne_zero hzero, by rw [hfin, if_neg hzero]⟩))

/-- Settles O52: for each class of patterns the encoder packs the three fields the decoder took. -/
theorem binary64RoundTrip : Obligations.Binary64RoundTrip := by
  intro b hnan
  rcases ofBits_cases b with ⟨hexp, hfrac, h⟩ | ⟨-, h⟩ | ⟨hexp, h⟩ | ⟨hlt, hpos, h⟩
  · rw [h, toBits, ← hexp, ← hfrac, packed_of_fields]
  · exact absurd h hnan
  · rw [h, toBits, if_pos (b.extractLsb' 0 52).isLt, ← hexp, BitVec.ofNat_toNat, BitVec.setWidth_eq,
      packed_of_fields]
  · have hexp : BitVec.ofNat 11 (((b.extractLsb' 52 11).toNat : Int) - 1075 + 1075).toNat =
        b.extractLsb' 52 11 := by
      rw [Int.sub_add_cancel, Int.toNat_natCast, BitVec.ofNat_toNat, BitVec.setWidth_eq]
    have hfrac : BitVec.ofNat 52 (2 ^ 52 + (b.extractLsb' 0 52).toNat) = b.extractLsb' 0 52 := by
      apply BitVec.eq_of_toNat_eq
      rw [BitVec.toNat_ofNat, Nat.add_mod_left, Nat.mod_eq_of_lt (b.extractLsb' 0 52).isLt]
    rw [h, toBits, if_neg (by omega), hexp, hfrac, packed_of_fields]

end Sys2Proof.Proofs
end

section
/-! Rounding to nearest, ties to even (R15). `RN` picks the nearest point of the grid of multiples of `2^e`, where
`e` is the exponent of binary64's spacing at the operand; every finite binary64 value is on that grid or lies
strictly inside the power of two below the operand. -/

namespace Sys2Proof.Proofs

open Sys2Proof.Machine Sys2Proof.Claims

/-! ## The grid of a rounding -/

/-- `k * 2^e` is `q` rounded to nearest, ties to even, on the grid of binary64's spacing at `q`. -/
structure RoundsTo (q : ℝ) (k e : ℤ) : Prop where
  least : -1074 ≤ e
  scale : -1074 < e → 2 ^ 52 * 2 ^ e ≤ |q|
  near : |k * 2 ^ e - q| ≤ 2 ^ e / 2
  tie : |k * 2 ^ e - q| = 2 ^ e / 2 → Even k

theorem RoundsTo.neg {q : ℝ} {k e : ℤ} (h : RoundsTo q k e) : RoundsTo (-q) (-k) e := by
  have hdist : |((-k : ℤ) : ℝ) * 2 ^ e - -q| = |(k : ℝ) * 2 ^ e - q| := by
    rw [← abs_neg]; congr 1; push_cast; ring
  exact ⟨h.least, fun he => (abs_neg q).symm ▸ h.scale he, hdist ▸ h.near,
    fun ht => (h.tie (hdist ▸ ht)).neg⟩

/-- Any other grid point is at least one spacing from the rounded one. -/
theorem RoundsTo.half_le_of_ne {q : ℝ} {k e j : ℤ} (h : RoundsTo q k e) (hj : j ≠ k) :
    2 ^ e / 2 ≤ |(j : ℝ) * 2 ^ e - q| := by
  have hpos : (0 : ℝ) < 2 ^ e := by positivity
  have hone : (1 : ℝ) ≤ |(j : ℝ) - k| := by exact_mod_cast Int.one_le_abs (sub_ne_zero.2 hj)
  have hgap : (2 : ℝ) ^ e ≤ |(j : ℝ) * 2 ^ e - k * 2 ^ e| := by
    rw [← sub_mul, abs_mul, abs_of_pos hpos]
    exact le_mul_of_one_le_left hpos.le hone
  have htri := abs_sub_le ((j : ℝ) * 2 ^ e) q (k * 2 ^ e)
  have hnear := h.near
  rw [abs_sub_comm] at hnear
  linarith

theorem RoundsTo.le_grid {q : ℝ} {k e : ℤ} (h : RoundsTo q k e) (j : ℤ) :
    |k * 2 ^ e - q| ≤ |(j : ℝ) * 2 ^ e - q| := by
  by_cases hj : j = k
  · rw [hj]
  · exact h.near.trans (h.half_le_of_ne hj)

/-- A number inside the power of two at the bottom of the binade of `q` is farther from `q` than that power is, and
that power is on the grid. -/
theorem RoundsTo.lt_of_below {q v : ℝ} {k e : ℤ} (h : RoundsTo q k e) (he : -1074 < e)
    (hv : |v| < 2 ^ 52 * 2 ^ e) : |k * 2 ^ e - q| < |v - q| := by
  have hscale := h.scale he
  have hfar : |q| - |v| ≤ |v - q| := abs_sub_comm q v ▸ abs_sub_abs_le_abs_sub q v
  obtain ⟨j, hj⟩ : ∃ j : ℤ, |(j : ℝ) * 2 ^ e - q| = |q| - 2 ^ 52 * 2 ^ e := by
    rcases le_total 0 q with hq | hq
    · rw [abs_of_nonneg hq] at hscale ⊢
      refine ⟨2 ^ 52, ?_⟩
      rw [abs_sub_comm, Int.cast_pow, Int.cast_ofNat, abs_of_nonneg (by linarith)]
    · rw [abs_of_nonpos hq] at hscale ⊢
      refine ⟨-2 ^ 52, ?_⟩
      rw [Int.cast_neg, Int.cast_pow, Int.cast_ofNat, abs_of_nonneg (by linarith)]
      ring
  have := h.le_grid j
  linarith

/-! ## The finite values on that grid -/

theorem two_zpow_eq_div (e : ℤ) : (2 : ℝ) ^ e = 2 ^ e.toNat / 2 ^ (-e).toNat := by
  rw [← zpow_natCast, ← zpow_natCast, ← zpow_sub₀ two_ne_zero]
  congr 1
  omega

theorem value_fin (neg : Bool) (m : Nat) (e : ℤ) :
    ((value (.fin neg m e) : ℚ) : ℝ) = (((if neg then -1 else 1) * m : ℤ) : ℝ) * 2 ^ e := by
  rw [value, Rat.mkRat_eq_div, two_zpow_eq_div]
  split <;> push_cast <;> ring

theorem abs_value_fin (neg : Bool) (m : Nat) (e : ℤ) : |((value (.fin neg m e) : ℚ) : ℝ)| = m * 2 ^ e := by
  have hsign : |((if neg then -1 else 1 : ℤ) : ℝ)| = 1 := by cases neg <;> simp
  rw [value_fin, Int.cast_mul, abs_mul, abs_mul, hsign, one_mul, Int.cast_natCast, Nat.abs_cast,
    abs_of_pos (by positivity)]

/-- A finite pattern's significand has at most 53 bits and its exponent is at least the least one. -/
theorem finite_pattern {b : DWord} (hb : isFinite (ofBits b) = true) :
    ∃ neg m e, ofBits b = .fin neg m e ∧ m < 2 ^ 53 ∧ -1074 ≤ e := by
  have hfrac := (b.extractLsb' 0 52).isLt
  rcases ofBits_cases b with ⟨-, -, h⟩ | ⟨-, h⟩ | ⟨-, h⟩ | ⟨-, hpos, h⟩
  · simp [h, isFinite] at hb
  · simp [h, isFinite] at hb
  · exact ⟨_, _, _, h, by omega, le_rfl⟩
  · exact ⟨_, _, _, h, by omega, by omega⟩

theorem finite_pattern_on_grid_or_below {b : DWord} (hb : isFinite (ofBits b) = true) {e : ℤ} (he : -1074 ≤ e) :
    (∃ j : ℤ, ((value (ofBits b) : ℚ) : ℝ) = j * 2 ^ e) ∨
      (-1074 < e ∧ |((value (ofBits b) : ℚ) : ℝ)| < 2 ^ 52 * 2 ^ e) := by
  obtain ⟨neg, m, e', hfin, hm, hleast⟩ := finite_pattern hb
  rw [hfin]
  rcases le_or_gt e e' with hle | hlt
  · obtain ⟨i, rfl⟩ := Int.le.dest hle
    refine .inl ⟨(if neg then -1 else 1) * m * 2 ^ i, ?_⟩
    rw [value_fin, zpow_add₀ two_ne_zero, zpow_natCast]
    push_cast
    ring
  · refine .inr ⟨by omega, ?_⟩
    have hm' : (m : ℝ) < 2 ^ 53 := by exact_mod_cast hm
    calc |((value (.fin neg m e') : ℚ) : ℝ)| = m * 2 ^ e' := abs_value_fin neg m e'
      _ < 2 ^ 53 * 2 ^ e' := by gcongr
      _ ≤ 2 ^ 53 * 2 ^ (e - 1) := by gcongr; exacts [one_le_two, by omega]
      _ = 2 ^ 52 * 2 ^ e := by rw [zpow_sub_one₀ two_ne_zero]; ring

/-- `x` is the finite binary64 value `k * 2^e`, and its significand is even if `k` is. -/
structure Represents (x : F64) (k e : ℤ) : Prop where
  pattern : ∃ b : DWord, ofBits b = x
  finite : isFinite x = true
  value_eq : ((value x : ℚ) : ℝ) = k * 2 ^ e
  even : Even k → ∃ neg m e', x = .fin neg (2 * m) e'

theorem represents_fin (neg : Bool) {m : Nat} {e : ℤ}
    (h : (m < 2 ^ 52 ∧ e = -1074) ∨ (2 ^ 52 ≤ m ∧ m < 2 ^ 53 ∧ -1074 ≤ e ∧ e ≤ 971)) :
    Represents (.fin neg m e) ((if neg then -1 else 1) * m) e where
  pattern := ⟨_, ofBits_toBits_fin neg m e h⟩
  finite := rfl
  value_eq := value_fin neg m e
  even hk := by
    obtain ⟨i, rfl⟩ : 2 ∣ m := by
      have : Even (m : ℤ) := by cases neg <;> simpa using hk
      exact_mod_cast this.two_dvd
    exact ⟨neg, i, e, rfl⟩

/-- A significand of 2^53 is carried into the exponent. -/
theorem represents_carry (neg : Bool) {e : ℤ} (hlo : -1074 ≤ e) (hhi : e + 1 ≤ 971) :
    Represents (.fin neg (2 ^ 52) (e + 1)) ((if neg then -1 else 1) * (2 ^ 53 : Nat)) e where
  pattern := ⟨_, ofBits_toBits_fin neg (2 ^ 52) (e + 1) (.inr ⟨le_rfl, by norm_num, by omega, hhi⟩)⟩
  finite := rfl
  value_eq := by
    rw [value_fin, zpow_add_one₀ two_ne_zero]
    push_cast
    ring
  even _ := ⟨neg, 2 ^ 51, e + 1, rfl⟩

/-- A rounding to a representable grid point is a nearest value, and at a tie its significand is even. -/
theorem RoundsTo.nearestTo {q : ℝ} {k e : ℤ} {x : F64} (h : RoundsTo q k e) (hx : Represents x k e) :
    NearestTo x q := by
  refine ⟨hx.finite, hx.pattern, fun b hb => ?_⟩
  rw [hx.value_eq]
  obtain ⟨j, hj⟩ | ⟨he, hlt⟩ := finite_pattern_on_grid_or_below hb h.least
  · rw [hj]
    exact h.le_grid j
  · exact (h.lt_of_below he hlt).le

theorem RoundsTo.even_of_tie {q : ℝ} {k e : ℤ} {x : F64} (h : RoundsTo q k e) (hx : Represents x k e) {b : DWord}
    (hb : isFinite (ofBits b) = true) (hne : value (ofBits b) ≠ value x)
    (htie : |((value (ofBits b) : ℚ) : ℝ) - q| = |((value x : ℚ) : ℝ) - q|) : Even k := by
  rw [hx.value_eq] at htie
  obtain ⟨j, hj⟩ | ⟨he, hlt⟩ := finite_pattern_on_grid_or_below hb h.least
  · have hjk : j ≠ k := by
      rintro rfl
      exact hne (Rat.cast_injective (hj.trans hx.value_eq.symm))
    rw [hj] at htie
    exact h.tie (h.near.antisymm (htie ▸ h.half_le_of_ne hjk))
  · exact absurd htie.symm (h.lt_of_below he hlt).ne

/-! ## The arithmetic of `RN` -/

theorem roundHalfEven_near (n : Nat) {d : Nat} (hd : 0 < d) :
    |(roundHalfEven n d : ℝ) - n / d| ≤ 1 / 2 ∧
      (|(roundHalfEven n d : ℝ) - n / d| = 1 / 2 → Even (roundHalfEven n d)) := by
  have hd' : (0 : ℝ) < d := by exact_mod_cast hd
  have hdiv : (n : ℝ) / d = (n / d : Nat) + (n % d : Nat) / d := by
    rw [eq_comm, add_div_eq_mul_add_div _ _ hd'.ne']
    congr 1
    exact_mod_cast Nat.div_add_mod' n d
  have hrem : ((n % d : Nat) : ℝ) / d < 1 := (div_lt_one hd').2 (by exact_mod_cast Nat.mod_lt n hd)
  have hrem0 : 0 ≤ ((n % d : Nat) : ℝ) / d := by positivity
  have hhalf : ((n % d : Nat) : ℝ) / d = 1 / 2 ↔ 2 * (n % d) = d := by
    rw [div_eq_div_iff hd'.ne' two_ne_zero, one_mul, mul_comm]
    exact_mod_cast Iff.rfl
  rw [hdiv]
  dsimp only [roundHalfEven]
  split
  next hup =>
    have hge : 1 / 2 ≤ ((n % d : Nat) : ℝ) / d := by
      rw [div_le_div_iff₀ two_pos hd', one_mul, mul_comm]
      exact_mod_cast (by omega : d ≤ 2 * (n % d))
    have habs : |((n / d + 1 : Nat) : ℝ) - ((n / d : Nat) + (n % d : Nat) / d)| = 1 - (n % d : Nat) / d := by
      rw [Nat.cast_add_one, add_sub_add_left_eq_sub, abs_of_nonneg (by linarith)]
    rw [habs]
    refine ⟨by linarith, fun ht => ?_⟩
    have := hhalf.1 (by linarith)
    exact Nat.even_iff.2 (by omega)
  next hdown =>
    have hle : ((n % d : Nat) : ℝ) / d ≤ 1 / 2 := by
      rw [div_le_div_iff₀ hd' two_pos, one_mul, mul_comm]
      exact_mod_cast (by omega : 2 * (n % d) ≤ d)
    rw [sub_add_cancel_left, abs_neg, abs_of_nonneg hrem0]
    refine ⟨hle, fun ht => ?_⟩
    have := hhalf.1 ht
    exact Nat.even_iff.2 (by omega)

theorem floorLog2_bounds {n d : Nat} (hn : 0 < n) (hd : 0 < d) :
    (2 : ℝ) ^ floorLog2 n d ≤ n / d ∧ (n : ℝ) / d < 2 ^ (floorLog2 n d + 1) := by
  have hd' : (0 : ℝ) < d := by exact_mod_cast hd
  have hnlo : (2 : ℝ) ^ n.log2 ≤ n := by exact_mod_cast Nat.log2_self_le hn.ne'
  have hnhi : (n : ℝ) < 2 ^ (n.log2 + 1) := by exact_mod_cast Nat.lt_log2_self
  have hdlo : (2 : ℝ) ^ d.log2 ≤ d := by exact_mod_cast Nat.log2_self_le hd.ne'
  have hdhi : (d : ℝ) < 2 ^ (d.log2 + 1) := by exact_mod_cast Nat.lt_log2_self
  have htest (k : ℤ) : d * 2 ^ k.toNat ≤ n * 2 ^ (-k).toNat ↔ (2 : ℝ) ^ k ≤ n / d := by
    rw [two_zpow_eq_div, div_le_div_iff₀ (by positivity) hd', mul_comm]
    exact_mod_cast Iff.rfl
  dsimp only [floorLog2]
  split
  next h =>
    refine ⟨(htest _).1 h, (div_lt_iff₀ hd').2 (hnhi.trans_le ?_)⟩
    calc (2 : ℝ) ^ (n.log2 + 1) = 2 ^ ((n.log2 : ℤ) - d.log2 + 1) * 2 ^ d.log2 := by
          rw [← zpow_natCast, ← zpow_natCast, ← zpow_add₀ two_ne_zero]; congr 1; push_cast; ring
      _ ≤ 2 ^ ((n.log2 : ℤ) - d.log2 + 1) * d := by gcongr
  next h =>
    refine ⟨(le_div_iff₀ hd').2 (le_trans ?_ hnlo), ?_⟩
    · calc (2 : ℝ) ^ ((n.log2 : ℤ) - d.log2 - 1) * d
          ≤ 2 ^ ((n.log2 : ℤ) - d.log2 - 1) * 2 ^ (d.log2 + 1) := by gcongr
        _ = 2 ^ n.log2 := by
          rw [← zpow_natCast, ← zpow_natCast, ← zpow_add₀ two_ne_zero]; congr 1; push_cast; ring
    · rw [sub_add_cancel]
      exact not_le.1 (mt (htest _).2 h)

/-- The exponent `roundMag` rounds `n / d` at. -/
def magExponent (n d : Nat) : ℤ := max (floorLog2 n d - 52) (-1074)

/-- The significand `roundMag` rounds to, before a carry out of 53 bits. -/
def magSignificand (n d : Nat) : Nat :=
  roundHalfEven (n * 2 ^ (-magExponent n d).toNat) (d * 2 ^ (magExponent n d).toNat)

theorem roundMag_eq_carry (neg : Bool) {n d : Nat} (hn : 0 < n) (hm : magSignificand n d = 2 ^ 53)
    (he : magExponent n d + 1 ≤ 971) :
    roundMag neg n d = .fin neg (2 ^ 52) (magExponent n d + 1) := by
  unfold magSignificand at hm
  unfold magExponent at hm he ⊢
  simp only [roundMag, if_neg hn.ne', hm, if_true, if_neg (not_lt.2 he)]

theorem roundMag_eq_fin (neg : Bool) {n d : Nat} (hn : 0 < n) (hm : magSignificand n d ≠ 2 ^ 53)
    (he : magExponent n d ≤ 971) :
    roundMag neg n d = .fin neg (magSignificand n d) (magExponent n d) := by
  unfold magSignificand at hm ⊢
  unfold magExponent at hm he ⊢
  simp only [roundMag, if_neg hn.ne', if_neg hm, if_neg (not_lt.2 he)]

section magnitude
variable {n d : Nat} (hn : 0 < n) (hd : 0 < d)
include hn hd

theorem magnitude_roundsTo : RoundsTo ((n : ℝ) / d) (magSignificand n d : ℤ) (magExponent n d) := by
  have hd' : (0 : ℝ) < d := by exact_mod_cast hd
  have hpos : (0 : ℝ) < 2 ^ magExponent n d := by positivity
  obtain ⟨hnear, heven⟩ := roundHalfEven_near (n * 2 ^ (-magExponent n d).toNat)
    (show 0 < d * 2 ^ (magExponent n d).toNat by positivity)
  have hscaled : ((n * 2 ^ (-magExponent n d).toNat : Nat) : ℝ) / (d * 2 ^ (magExponent n d).toNat : Nat) =
      n / d / 2 ^ magExponent n d := by
    rw [two_zpow_eq_div]
    push_cast
    field_simp
  have hdist : |((magSignificand n d : ℤ) : ℝ) * 2 ^ magExponent n d - n / d| =
      |(magSignificand n d : ℝ) - n / d / 2 ^ magExponent n d| * 2 ^ magExponent n d := by
    conv_rhs => rw [← abs_of_pos hpos, ← abs_mul, abs_of_pos hpos, sub_mul, div_mul_cancel₀ _ hpos.ne']
    rw [Int.cast_natCast]
  have hhalf : (2 : ℝ) ^ magExponent n d / 2 = 1 / 2 * 2 ^ magExponent n d := by ring
  rw [hscaled] at hnear heven
  refine ⟨le_max_right _ _, fun he => ?_, ?_, fun ht => ?_⟩
  · have hlog : magExponent n d = floorLog2 n d - 52 := by
      unfold magExponent at he ⊢
      omega
    rw [abs_of_nonneg (by positivity), hlog, ← zpow_natCast, ← zpow_add₀ two_ne_zero]
    simpa using (floorLog2_bounds hn hd).1
  · rw [hdist, hhalf]
    exact mul_le_mul_of_nonneg_right hnear hpos.le
  · rw [hdist, hhalf] at ht
    exact_mod_cast heven (mul_right_cancel₀ hpos.ne' ht)

theorem magnitude_lt : (n : ℝ) / d < 2 ^ 53 * 2 ^ magExponent n d := by
  refine (floorLog2_bounds hn hd).2.trans_le ?_
  rw [← zpow_natCast, ← zpow_add₀ two_ne_zero]
  refine zpow_le_zpow_right₀ one_le_two ?_
  have : floorLog2 n d - 52 ≤ magExponent n d := le_max_left _ _
  push_cast
  omega

theorem magSignificand_le : magSignificand n d ≤ 2 ^ 53 := by
  have hpos : (0 : ℝ) < 2 ^ magExponent n d := by positivity
  have hnear := (abs_le.1 (magnitude_roundsTo hn hd).near).2
  have hlt := magnitude_lt hn hd
  rw [Int.cast_natCast] at hnear
  have : (magSignificand n d : ℝ) < 2 ^ 53 + 1 := by
    refine lt_of_mul_lt_mul_right ?_ hpos.le
    linarith
  exact Nat.lt_succ_iff.1 (by exact_mod_cast this)

theorem le_magSignificand (he : -1074 < magExponent n d) : 2 ^ 52 ≤ magSignificand n d := by
  have hpos : (0 : ℝ) < 2 ^ magExponent n d := by positivity
  have hround := magnitude_roundsTo hn hd
  have hnear := (abs_le.1 hround.near).1
  have hscale := hround.scale he
  rw [Int.cast_natCast] at hnear
  rw [abs_of_nonneg (by positivity)] at hscale
  have : (2 ^ 52 : ℝ) < magSignificand n d + 1 := by
    refine lt_of_mul_lt_mul_right ?_ hpos.le
    linarith
  exact Nat.lt_succ_iff.1 (by exact_mod_cast this)

/-- Below the overflow threshold the exponent is one of a finite value. -/
theorem magExponent_le (hlt : (n : ℝ) / d < 2 ^ 1024 - 2 ^ 970) : magExponent n d ≤ 971 := by
  have hlog : floorLog2 n d < 1024 := by
    refine (zpow_lt_zpow_iff_right₀ (one_lt_two (α := ℝ))).1 ((floorLog2_bounds hn hd).1.trans_lt (hlt.trans ?_))
    rw [show (1024 : ℤ) = (1024 : Nat) from rfl, zpow_natCast]
    exact sub_lt_self _ (by positivity)
  exact max_le (by omega) (by norm_num)

/-- Below the overflow threshold a carry stays finite: at the greatest exponent there is none. -/
theorem magExponent_lt_of_carry (hlt : (n : ℝ) / d < 2 ^ 1024 - 2 ^ 970) (hm : magSignificand n d = 2 ^ 53) :
    magExponent n d + 1 ≤ 971 := by
  refine lt_of_le_of_ne (magExponent_le hn hd hlt) fun he => ?_
  have hnear := (abs_le.1 (magnitude_roundsTo hn hd).near).2
  rw [hm, he, show (971 : ℤ) = (971 : Nat) from rfl, zpow_natCast] at hnear
  have hhalf : (2 : ℝ) ^ 971 / 2 = 2 ^ 970 := by
    rw [show (2 : ℝ) ^ 971 = 2 ^ 970 * 2 from pow_succ _ 970, mul_div_cancel_right₀ _ two_ne_zero]
  have hcarry : (((2 ^ 53 : Nat) : ℤ) : ℝ) * 2 ^ 971 = 2 ^ 1024 := by
    rw [Int.cast_natCast, Nat.cast_pow, Nat.cast_ofNat, ← pow_add]
  rw [hhalf, hcarry, sub_le_comm] at hnear
  exact absurd hlt hnear.not_gt

theorem roundMag_represents (neg : Bool) (hlt : (n : ℝ) / d < 2 ^ 1024 - 2 ^ 970) :
    Represents (roundMag neg n d) ((if neg then -1 else 1) * magSignificand n d) (magExponent n d) := by
  have hleast : -1074 ≤ magExponent n d := (magnitude_roundsTo hn hd).least
  by_cases hm : magSignificand n d = 2 ^ 53
  · have he := magExponent_lt_of_carry hn hd hlt hm
    rw [roundMag_eq_carry neg hn hm he, hm]
    exact represents_carry neg hleast he
  · have he := magExponent_le hn hd hlt
    have hle := magSignificand_le hn hd
    rw [roundMag_eq_fin neg hn hm he]
    refine represents_fin neg ?_
    by_cases hsub : magExponent n d = -1074
    · omega
    · have := le_magSignificand hn hd (by omega)
      omega

end magnitude

theorem natAbs_num_div_den (q : ℚ) : (q.num.natAbs : ℝ) / q.den = |(q : ℝ)| := by
  conv_rhs => rw [Rat.cast_def]
  rw [abs_div, Nat.abs_cast, Nat.cast_natAbs, Int.cast_abs]

/-- `RN` below the overflow threshold, with either sign of an exact zero: a representable rounding. -/
theorem roundQ_roundsTo (zeroNeg : Bool) {q : ℚ} (hq : |q| < 2 ^ 1024 - 2 ^ 970) :
    ∃ k e : ℤ, RoundsTo q k e ∧ Represents (roundQ zeroNeg q) k e := by
  rcases eq_or_ne q 0 with rfl | hne
  · refine ⟨0, -1074, ⟨le_rfl, fun h => absurd h (lt_irrefl _), ?_, fun _ => Even.zero⟩, ?_⟩
    · simp only [Int.cast_zero, zero_mul, Rat.cast_zero, sub_zero, abs_zero]
      positivity
    · simpa [roundQ] using represents_fin zeroNeg (m := 0) (.inl ⟨by norm_num, rfl⟩)
  · have hn : 0 < q.num.natAbs := Int.natAbs_pos.2 (Rat.num_ne_zero.2 hne)
    have habs := natAbs_num_div_den q
    have hround := magnitude_roundsTo hn q.den_pos
    have hrep := roundMag_represents hn q.den_pos (decide (q < 0))
      (by rw [habs]; exact_mod_cast hq)
    rw [habs] at hround
    refine ⟨_, _, ?_, by rw [roundQ, if_neg hne]; exact hrep⟩
    rcases lt_or_gt_of_ne hne with hneg | hpos
    · rw [abs_of_neg (by exact_mod_cast hneg)] at hround
      simpa [hneg] using hround.neg
    · rw [abs_of_pos (by exact_mod_cast hpos)] at hround
      simpa [hpos.le, not_lt.2 hpos.le] using hround

/-- Settles O51: RN rounds to a representable point of the grid at its operand. -/
theorem roundingIsNearestEven : Obligations.RoundingIsNearestEven := by
  intro q hq
  obtain ⟨k, e, hround, hrep⟩ := roundQ_roundsTo false hq
  exact ⟨hround.nearestTo hrep, fun b hb hne htie =>
    hrep.even (hround.even_of_tie hrep hb hne (by exact_mod_cast htie))⟩

end Sys2Proof.Proofs
end

section
/-! What the block and the host leave alone of the platform's inputs and the schedule (R215, R218). -/

namespace Sys2Proof.Proofs

open Sys2Proof.Machine Sys2Proof.Claims

theorem hostCommand_sameOutside (w : Word) (s : State) : SameOutside s (hostCommand w s) := by
  have hk := hostCommand_keeps w s
  exact ⟨by simp only [hk], by simp only [hk], by simp only [hk], by simp only [hk], by simp only [hk]⟩

theorem writeOffset_sameOutside (s : State) (off : Nat) (v : Word) :
    SameOutside s (writeOffset s off v) := by
  rcases writeOffset_cases s off v with h | ⟨r, -, h⟩ | h <;> rw [h]
  · exact ⟨rfl, rfl, rfl, rfl, rfl⟩
  · exact ⟨writeInput_now s v r, writeInput_resetAsserted s v r, writeInput_basePage s v r,
      writeInput_events s v r, writeInput_response s v r⟩
  · exact hostCommand_sameOutside v s

theorem exec_sameOutside {i : Instr} {s t : State} (h : exec i s = .next t) : SameOutside s t := by
  obtain ⟨p, -, ⟨-, rfl⟩ | ⟨code, -, rfl⟩⟩ := exec_cases h
  · obtain ⟨-, -, -, -, -, -, -, -, -, -, hnow, hreset, hbase, hevents, hresp⟩ := resultsOf_keeps i p s
    exact ⟨hnow, hreset, hbase, hevents, hresp⟩
  · exact ⟨rfl, rfl, rfl, rfl, rfl⟩

theorem blockStep_sameOutside {s t : State} (h : blockStep s = .next t) : SameOutside s t := by
  obtain ⟨rfl, -⟩ | ⟨p, i, -, -, hexec⟩ := blockStep_cases h
  · exact ⟨rfl, rfl, rfl, rfl, rfl⟩
  · exact exec_sameOutside hexec

theorem sampleNow_sameOutside (s : State) : SameOutside s (sampleNow s) := by
  rcases sampleNow_cases s with h | ⟨p, -, -, h⟩ <;> rw [h] <;> exact ⟨rfl, rfl, rfl, rfl, rfl⟩

/-- A step takes the first move off the schedule (R215). -/
theorem step_events {s t : State} (h : step s = .next t) : t.events = s.events.tail := by
  rcases step_cases h with ⟨he, hb⟩ | ⟨rest, ⟨addr, size, he, hr⟩ | ⟨addr, size, v, he, hw⟩ | ⟨he, hb⟩ |
    ⟨he, rfl⟩ | ⟨ms, he, rfl⟩ | ⟨he, rfl⟩ | ⟨he, rfl⟩⟩ <;> rw [he]
  · obtain ⟨-, -, -, hevents, -⟩ := blockStep_sameOutside hb
    rw [hevents, he, List.tail_nil]
  · obtain ⟨-, off, -, rfl⟩ := hostRead_cases hr
    rfl
  · obtain ⟨-, off, -, rfl⟩ := hostWrite_cases hw
    obtain ⟨-, -, -, hevents, -⟩ := writeOffset_sameOutside { s with events := rest } off v
    exact hevents
  · obtain ⟨-, -, -, hevents, -⟩ := blockStep_sameOutside hb
    exact hevents
  · obtain ⟨-, -, -, hevents, -⟩ := sampleNow_sameOutside { s with events := rest }
    exact hevents
  · rfl
  · rfl
  · rfl

end Sys2Proof.Proofs
end

section
/-! What a completion leaves in the CRC registers, the MSG record and the CPR result, outcome by outcome (R65). -/

namespace Sys2Proof.Proofs

open Sys2Proof.Machine Sys2Proof.Claims

/-- The CRC registers after a completion: untouched, those of the straight check, or those of the retry. -/
theorem resultsOf_crc_cases (i : Instr) (p : Pending) (s : State) :
    ((resultsOf i p s).cframe = s.cframe ∧ (resultsOf i p s).crcInfo = s.crcInfo) ∨
    ((resultsOf i p s).cframe = p.snap.frame ∧ (resultsOf i p s).crcInfo =
      ⟨decide (crc24 p.snap.frame = 0), Config.noFlip, crc24 p.snap.frame⟩) ∨
    ((resultsOf i p s).cframe = (crcFix p.snap.frame).frame ∧
      (resultsOf i p s).crcInfo = fixInfo (crcFix p.snap.frame)) := by
  cases i with
  | crcCheck => exact .inr (.inl ⟨rfl, rfl⟩)
  | crcCorrect => exact .inr (.inr ⟨rfl, rfl⟩)
  | decode =>
    rw [resultsOf]
    split
    · exact .inl ⟨rfl, rfl⟩
    · exact .inr (.inr ⟨rfl, rfl⟩)
  | posToSlot slot => exact .inl ⟨setSlot_cframe slot _ s, setSlot_crcInfo slot _ s⟩
  | _ => exact .inl ⟨rfl, rfl⟩

/-- Steps 3 to 7 of DECODE reject the frame or construct a message from it (R104 to R106, R108). -/
theorem dispatchFrame_cases (X : Frame) (ts : DWord) :
    (∃ r, dispatchFrame X ts = rejectMsg r) ∨
      ∃ kind, kind ≠ .noMessage ∧ dispatchFrame X ts = makeMsg kind X ts := by
  unfold dispatchFrame
  split
  · exact .inl ⟨_, rfl⟩
  · split
    · exact .inl ⟨_, rfl⟩
    all_goals exact .inr ⟨_, by decide, rfl⟩

/-- The MSG record after a completion: untouched, a rejection, or a message stamped with the command's sample. -/
theorem resultsOf_msg_cases (i : Instr) (p : Pending) (s : State) :
    (resultsOf i p s).msg = s.msg ∨ (∃ r, (resultsOf i p s).msg = rejectMsg r) ∨
      ∃ kind X, kind ≠ .noMessage ∧ (resultsOf i p s).msg = makeMsg kind X (timestamp p s) := by
  cases i with
  | decode =>
    rw [resultsOf]
    split
    · exact .inr (.inl ⟨_, rfl⟩)
    · rw [setMsg_msg]
      split
      · rcases dispatchFrame_cases (crcFix p.snap.frame).frame (timestamp p s) with ⟨r, h⟩ | ⟨kind, hk, h⟩
        · exact .inr (.inl ⟨r, h⟩)
        · exact .inr (.inr ⟨kind, _, hk, h⟩)
      · exact .inr (.inl ⟨_, rfl⟩)
  | decId => exact .inr (.inr ⟨.identification, _, by decide, rfl⟩)
  | decPos => exact .inr (.inr ⟨.airbornePosition, _, by decide, rfl⟩)
  | decVel => exact .inr (.inr ⟨.velocity, _, by decide, rfl⟩)
  | posToSlot slot => exact .inl (setSlot_msg slot _ s)
  | _ => exact .inl rfl

/-- The CPR result after a completion: untouched, or that of the latched slots. -/
theorem resultsOf_cpr_cases (i : Instr) (p : Pending) (s : State) :
    (resultsOf i p s).cpr = s.cpr ∨
      (resultsOf i p s).cpr = cprResolve p.snap.slot0 p.snap.slot1 p.snap.refLon := by
  cases i with
  | decode => rw [resultsOf]; split <;> exact .inl rfl
  | posToSlot slot => exact .inl (setSlot_cpr slot _ s)
  | cprResolve => exact .inr rfl
  | _ => exact .inl rfl

end Sys2Proof.Proofs
end

section
/-! The register words as numbers (R25 to R44), and what every register shows of the state (R24, R51). -/

namespace Sys2Proof.Proofs

open Sys2Proof.Machine Sys2Proof.Claims

/-! ## Packed words -/

/-- Fields set side by side, as a number. -/
theorem toNat_append_eq_add {m n : Nat} (x : BitVec m) (y : BitVec n) :
    (x ++ y).toNat = x.toNat * 2 ^ n + y.toNat := by
  rw [BitVec.toNat_append, ← Nat.shiftLeft_add_eq_or_of_lt y.isLt, Nat.shiftLeft_eq]

theorem statusWord_toNat (s : State) :
    (statusWord s).toNat =
      256 * s.lastop.toNat + 4 * (faultFlag s).toNat + 2 * s.done.toNat + (busyFlag s).toNat := by
  simp only [statusWord, toNat_append_eq_add, BitVec.toNat_ofNat, BitVec.toNat_ofBool]
  omega

theorem crcInfoWord_toNat (c : CrcInfo) :
    (crcInfoWord c).toNat = 2 ^ 31 * c.pass.toNat + 2 ^ 24 * c.flip.toNat + c.syndrome.toNat := by
  simp only [crcInfoWord, toNat_append_eq_add, BitVec.toNat_ofBool]
  omega

theorem faultCodeWord_toNat (c : FaultCode) : (faultCodeWord c).toNat = faultNumber c := by
  cases c <;> rfl

theorem msgKindWord_toNat (m : MsgRecord) :
    (msgKindWord m).toNat = 16 * reasonNumber m.reason + kindNumber m.kind := by
  unfold msgKindWord
  cases m.reason <;> cases m.kind <;> rfl

theorem msgIcaoWord_toNat (m : MsgRecord) : (msgIcaoWord m).toNat = m.icao.toNat := by
  simp only [msgIcaoWord, toNat_append_eq_add, BitVec.toNat_ofNat]
  omega

theorem msgTcdfWord_toNat (m : MsgRecord) : (msgTcdfWord m).toNat = 256 * m.df.toNat + m.tc.toNat := by
  simp only [msgTcdfWord, toNat_append_eq_add, BitVec.toNat_ofNat]
  omega

theorem idCatWord_toNat (r : IdRecord) :
    (idCatWord r).toNat = 4096 * r.set.toNat + 256 * r.ca.toNat + r.cat.toNat := by
  simp only [idCatWord, toNat_append_eq_add, BitVec.toNat_ofNat]
  omega

theorem posFlagsWord_toNat (r : PosRecord) :
    (posFlagsWord r).toNat = 4096 * r.f.toNat + 256 * r.t.toNat + 16 * r.nicsb.toNat + r.ss.toNat := by
  simp only [posFlagsWord, toNat_append_eq_add, BitVec.toNat_ofNat]
  omega

theorem altPathBits_toNat (x : AltPath) : (altPathBits x).toNat = pathNumber x := by cases x <;> rfl

theorem altInfoWord_toNat (i : AltInfo) :
    (altInfoWord i).toNat =
      2 ^ 20 * i.n25.toNat + 2 ^ 16 * i.n100.toNat + 256 * i.n500.toNat + 4 * i.q.toNat + pathNumber i.path := by
  simp only [altInfoWord, toNat_append_eq_add, BitVec.toNat_ofNat, altPathBits_toNat]
  omega

theorem cprReasonBits_toNat (x : CprReason) : (cprReasonBits x).toNat = cprReasonNumber x := by
  cases x <;> rfl

theorem cprStatusWord_toNat (c : CprResult) :
    (cprStatusWord c).toNat = 256 * c.used.toNat + 16 * cprReasonNumber c.reason + c.valid.toNat := by
  simp only [cprStatusWord, toNat_append_eq_add, BitVec.toNat_ofNat, BitVec.toNat_ofBool, cprReasonBits_toNat]
  omega

/-- A field below leading zeros is the whole word (R28, R37, R38, R40, R42). -/
theorem toNat_zero_append {m n : Nat} (x : BitVec n) : (0#m ++ x).toNat = x.toNat := by simp

theorem loHalf_toNat (d : DWord) : (loHalf d).toNat = d.toNat % 2 ^ 32 := by simp [loHalf]

theorem hiHalf_toNat (d : DWord) : (hiHalf d).toNat = d.toNat / 2 ^ 32 := by
  have := d.isLt
  simp only [hiHalf, BitVec.extractLsb'_toNat, Nat.shiftRight_eq_div_pow]
  omega

/-- The two registers of a pair give back the 64-bit value (R56). -/
theorem hiHalf_append_loHalf (d : DWord) : hiHalf d ++ loHalf d = d := by
  apply BitVec.eq_of_toNat_eq
  rw [toNat_append_eq_add, hiHalf_toNat, loHalf_toNat]
  omega

theorem pairShows_halves {s : State} {lo hi : Reg} {d : DWord} (hlo : readReg s lo = loHalf d)
    (hhi : readReg s hi = hiHalf d) : PairShows s lo hi d :=
  ⟨hlo ▸ loHalf_toNat d, hhi ▸ hiHalf_toNat d⟩

/-! ## Every register shows its fields -/

/-- `FRAME0` to `FRAME3` show the bits of the frame they hold, first bit uppermost (R29). -/
theorem frameShows_words {s : State} {r : Fin 4 → Reg} {F : Frame}
    (hr : ∀ k, readReg s (r k) = ![frameWord0 F, frameWord1 F, frameWord2 F, frameWord3 F] k) :
    FrameShows s r F := by
  intro k b hb hin
  rw [hr]
  have hF : F.getMsbD (32 * k.val + b) = F.getLsbD (111 - (32 * k.val + b)) := by
    rw [BitVec.getMsbD, decide_eq_true (by omega), Bool.true_and]
  rw [hF]
  fin_cases k
  · simp [frameWord0, show 31 - b < 32 by omega, show 80 + (31 - b) = 111 - b by omega]
  · simp [frameWord1, show 31 - b < 32 by omega, show 48 + (31 - b) = 111 - (32 + b) by omega]
  · simp [frameWord2, show 31 - b < 32 by omega, show 16 + (31 - b) = 111 - (64 + b) by omega]
  · have hlow : 96 + b ≤ 111 := hin
    change (F.extractLsb' 0 16 ++ 0#16).getLsbD (31 - b) = F.getLsbD (111 - (96 + b))
    rw [BitVec.getLsbD_append, if_neg (by omega)]
    simp [show 31 - b - 16 = 111 - (96 + b) by omega, show 111 - (96 + b) < 16 by omega]

theorem busyFlag_eq_true_iff (s : State) : busyFlag s = true ↔ ∃ p, s.cst = .busy p := by
  unfold busyFlag
  split <;> simp_all

theorem faultFlag_eq_true_iff (s : State) : faultFlag s = true ↔ s.cst = .faulted := by
  unfold faultFlag
  split <;> simp_all

/-- A single-bit field reads 1 exactly when the flag is set. -/
theorem toNat_eq_one_iff (b : Bool) : b.toNat = 1 ↔ b = true := by cases b <;> decide

theorem showsShell (s : State) : ShowsShell s := by
  have hstatus := statusWord_toNat s
  have hcrc := crcInfoWord_toNat s.crcInfo
  have hfault := Bool.toNat_le (faultFlag s)
  have hdone := Bool.toNat_le s.done
  have hbusy := Bool.toNat_le (busyFlag s)
  have hpass := Bool.toNat_le s.crcInfo.pass
  have hlast := s.lastop.isLt
  have hflip := s.crcInfo.flip.isLt
  have hsyn := s.crcInfo.syndrome.isLt
  have hlen := s.frameLen.isLt
  refine { faultCmd := rfl, res0 := rfl, res1 := rfl,
           frame := frameShows_words fun k => by fin_cases k <;> rfl,
           cframe := frameShows_words fun k => by fin_cases k <;> rfl,
           busy := ?_, done := ?_, fault := ?_, lastop := ?_, faultCode := ?_, frameLen := ?_,
           syndrome := ?_, flip := ?_, pass := ?_ } <;>
    simp only [bitsOf, readReg]
  · rw [← busyFlag_eq_true_iff, ← toNat_eq_one_iff]
    omega
  · rw [← toNat_eq_one_iff]
    omega
  · rw [← faultFlag_eq_true_iff, ← toNat_eq_one_iff]
    omega
  · omega
  · rw [faultCodeWord_toNat]
    cases s.faultCode <;> rfl
  · rw [frameLenWord, toNat_zero_append]
    omega
  · omega
  · omega
  · rw [← toNat_eq_one_iff]
    omega

theorem kindNumber_lt (k : MsgKind) : kindNumber k < 4 := by cases k <;> decide
theorem reasonNumber_lt (r : MsgReason) : reasonNumber r < 8 := by cases r <;> decide
theorem pathNumber_lt (x : AltPath) : pathNumber x < 4 := by cases x <;> decide
theorem cprReasonNumber_lt (r : CprReason) : cprReasonNumber r < 8 := by cases r <;> decide

/-- A field that starts at bit 0 of a word it fills. -/
theorem low_field {n : Nat} (x : BitVec n) {m : Nat} : (0#m ++ x).toNat / 2 ^ 0 % 2 ^ n = x.toNat := by
  rw [toNat_zero_append, Nat.pow_zero, Nat.div_one, Nat.mod_eq_of_lt x.isLt]

theorem showsMessage (s : State) : ShowsMessage s := by
  have hkindword := msgKindWord_toNat s.msg
  have hkind := kindNumber_lt s.msg.kind
  have hreason := reasonNumber_lt s.msg.reason
  have htcdf := msgTcdfWord_toNat s.msg
  have htc := s.msg.tc.isLt
  have hdf := s.msg.df.isLt
  have hidcat := idCatWord_toNat s.msg.id
  have hcat := s.msg.id.cat.isLt
  have hca := s.msg.id.ca.isLt
  have hset := s.msg.id.set.isLt
  have hflags := posFlagsWord_toNat s.msg.pos
  have hss := s.msg.pos.ss.isLt
  have hnic := s.msg.pos.nicsb.isLt
  have ht := s.msg.pos.t.isLt
  have hf := s.msg.pos.f.isLt
  have halt := altInfoWord_toNat s.msg.pos.altInfo
  have hpath := pathNumber_lt s.msg.pos.altInfo.path
  have hq := s.msg.pos.altInfo.q.isLt
  have hn500 := s.msg.pos.altInfo.n500.isLt
  have hn100 := s.msg.pos.altInfo.n100.isLt
  have hn25 := s.msg.pos.altInfo.n25.isLt
  refine { ts := pairShows_halves rfl rfl, name := pairShows_halves rfl rfl, alt := rfl, ew := rfl,
           ns := rfl, vr := rfl, speed := pairShows_halves rfl rfl, hdg := pairShows_halves rfl rfl,
           icao := low_field s.msg.icao, nameLen := low_field s.msg.id.nameLen,
           altRaw := low_field s.msg.pos.altRaw, latCpr := low_field s.msg.pos.latCpr,
           lonCpr := low_field s.msg.pos.lonCpr, sub := low_field s.msg.vel.sub,
           kind := ?_, reason := ?_, tc := ?_, df := ?_, cat := ?_, ca := ?_, set := ?_, ss := ?_, nicsb := ?_,
           t := ?_, f := ?_, path := ?_, q := ?_, n500 := ?_, n100 := ?_, n25 := ?_ } <;>
    simp only [bitsOf, readReg] <;> omega

theorem showsSlot0 (s : State) : ShowsSlot s .slot0F .slot0Lat .slot0Lon .slot0TsLo .slot0TsHi s.slot0 :=
  ⟨low_field s.slot0.f, low_field s.slot0.lat, low_field s.slot0.lon, pairShows_halves rfl rfl⟩

theorem showsSlot1 (s : State) : ShowsSlot s .slot1F .slot1Lat .slot1Lon .slot1TsLo .slot1TsHi s.slot1 :=
  ⟨low_field s.slot1.f, low_field s.slot1.lat, low_field s.slot1.lon, pairShows_halves rfl rfl⟩

theorem showsPosition (s : State) : ShowsPosition s := by
  have hstatus := cprStatusWord_toNat s.cpr
  have hvalid := Bool.toNat_le s.cpr.valid
  have hreason := cprReasonNumber_lt s.cpr.reason
  have hused := s.cpr.used.isLt
  refine { slot0 := showsSlot0 s, slot1 := showsSlot1 s, refLat := pairShows_halves rfl rfl,
           refLon := pairShows_halves rfl rfl, nlLat := pairShows_halves rfl rfl, nl := rfl, j := rfl,
           m := rfl, lat := pairShows_halves rfl rfl, lon := pairShows_halves rfl rfl,
           valid := ?_, reason := ?_, used := ?_ } <;>
    simp only [bitsOf, readReg]
  · rw [← toNat_eq_one_iff]
    omega
  · omega
  · omega

/-- Settles O10: the map, the words by their fields, and the step that is a host read. -/
theorem readReturnsRegister : Obligations.ReadReturnsRegister := by
  refine ⟨⟨by decide, fun r => by cases r <;> decide⟩,
    fun s => ⟨showsShell s, showsMessage s, showsPosition s⟩, fun s r rest hreset hmove => ?_⟩
  rw [step_cons hmove]
  exact hostRead_register (s := { s with events := rest }) hreset r

end Sys2Proof.Proofs
end

section
/-! What a host write, an acceptance and a sample leave in the registers (R23, R47, R48, R58). -/

namespace Sys2Proof.Proofs

open Sys2Proof.Machine Sys2Proof.Claims

/-! ## The registers a host cannot write -/

/-- The two states agree in everything a register that no host writes shows, and in NOW. -/
structure SameOutputs (s t : State) : Prop where
  busy : busyFlag t = busyFlag s
  fault : faultFlag t = faultFlag s
  done : t.done = s.done
  lastop : t.lastop = s.lastop
  faultCode : t.faultCode = s.faultCode
  faultCmd : t.faultCmd = s.faultCmd
  cframe : t.cframe = s.cframe
  crcInfo : t.crcInfo = s.crcInfo
  res0 : t.res0 = s.res0
  res1 : t.res1 = s.res1
  msg : t.msg = s.msg
  cpr : t.cpr = s.cpr
  now : t.now = s.now

theorem SameOutputs.readReg {s t : State} (h : SameOutputs s t) {g : Reg} (hg : writableMask g = none) :
    readReg t g = readReg s g := by
  obtain ⟨hbusy, hfault, hdone, hlast, hcode, hcmd, hcframe, hcrc, hres0, hres1, hmsg, hcpr, -⟩ := h
  cases g with
  | status => simp only [Machine.readReg, statusWord, hbusy, hfault, hdone, hlast]
  | cmd => rfl
  | frameLen | frame0 | frame1 | frame2 | frame3 | slot0F | slot0Lat | slot0Lon | slot0TsLo | slot0TsHi
  | slot1F | slot1Lat | slot1Lon | slot1TsLo | slot1TsHi | refLatLo | refLatHi | refLonLo | refLonHi
  | nlLatLo | nlLatHi => exact absurd hg (by decide)
  | _ => simp only [Machine.readReg, hcode, hcmd, hcframe, hcrc, hres0, hres1, hmsg, hcpr]

theorem writeInput_sameOutputs (s : State) (v : Word) (r : Reg) : SameOutputs s (writeInput s v r) := by
  constructor <;> simp [busyFlag, faultFlag]

/-! ## The registers a host writes -/

section masks
variable (v : Word)

theorem and_byteMask : v &&& 0x000000FF#32 = 0#24 ++ v.extractLsb' 0 8 := by
  apply BitVec.eq_of_toNat_eq
  rw [toNat_zero_append, BitVec.extractLsb'_toNat, BitVec.toNat_and]
  exact Nat.and_two_pow_sub_one_eq_mod v.toNat 8

theorem and_bitMask : v &&& 0x00000001#32 = 0#31 ++ v.extractLsb' 0 1 := by
  apply BitVec.eq_of_toNat_eq
  rw [toNat_zero_append, BitVec.extractLsb'_toNat, BitVec.toNat_and]
  exact Nat.and_two_pow_sub_one_eq_mod v.toNat 1

theorem and_coordinateMask : v &&& 0x0001FFFF#32 = 0#15 ++ v.extractLsb' 0 17 := by
  apply BitVec.eq_of_toNat_eq
  rw [toNat_zero_append, BitVec.extractLsb'_toNat, BitVec.toNat_and]
  exact Nat.and_two_pow_sub_one_eq_mod v.toNat 17

theorem and_highHalfMask : v &&& 0xFFFF0000#32 = v.extractLsb' 16 16 ++ 0#16 := by
  apply BitVec.eq_of_getLsbD_eq
  intro i hi
  rw [BitVec.getLsbD_append]
  interval_cases i <;> simp

theorem and_fullMask : v &&& 0xFFFFFFFF#32 = v := BitVec.and_allOnes

end masks

section frames
variable (F : Frame) (v : Word)

theorem frameWords_withFrameWord0 :
    frameWord0 (withFrameWord0 F v) = v ∧ frameWord1 (withFrameWord0 F v) = frameWord1 F ∧
    frameWord2 (withFrameWord0 F v) = frameWord2 F ∧ frameWord3 (withFrameWord0 F v) = frameWord3 F := by
  refine ⟨?_, ?_, ?_, ?_⟩ <;> apply BitVec.eq_of_toNat_eq <;>
    simp only [frameWord0, frameWord1, frameWord2, frameWord3, withFrameWord0, toNat_append_eq_add,
      BitVec.extractLsb'_toNat, Nat.shiftRight_eq_div_pow] <;> omega

theorem frameWords_withFrameWord1 :
    frameWord0 (withFrameWord1 F v) = frameWord0 F ∧ frameWord1 (withFrameWord1 F v) = v ∧
    frameWord2 (withFrameWord1 F v) = frameWord2 F ∧ frameWord3 (withFrameWord1 F v) = frameWord3 F := by
  refine ⟨?_, ?_, ?_, ?_⟩ <;> apply BitVec.eq_of_toNat_eq <;>
    simp only [frameWord0, frameWord1, frameWord2, frameWord3, withFrameWord1, toNat_append_eq_add,
      BitVec.extractLsb'_toNat, Nat.shiftRight_eq_div_pow] <;> omega

theorem frameWords_withFrameWord2 :
    frameWord0 (withFrameWord2 F v) = frameWord0 F ∧ frameWord1 (withFrameWord2 F v) = frameWord1 F ∧
    frameWord2 (withFrameWord2 F v) = v ∧ frameWord3 (withFrameWord2 F v) = frameWord3 F := by
  refine ⟨?_, ?_, ?_, ?_⟩ <;> apply BitVec.eq_of_toNat_eq <;>
    simp only [frameWord0, frameWord1, frameWord2, frameWord3, withFrameWord2, toNat_append_eq_add,
      BitVec.extractLsb'_toNat, Nat.shiftRight_eq_div_pow] <;> omega

theorem frameWords_withFrameWord3 :
    frameWord0 (withFrameWord3 F v) = frameWord0 F ∧ frameWord1 (withFrameWord3 F v) = frameWord1 F ∧
    frameWord2 (withFrameWord3 F v) = frameWord2 F ∧
    frameWord3 (withFrameWord3 F v) = v.extractLsb' 16 16 ++ 0#16 := by
  refine ⟨?_, ?_, ?_, ?_⟩ <;> apply BitVec.eq_of_toNat_eq <;>
    simp only [frameWord0, frameWord1, frameWord2, frameWord3, withFrameWord3, toNat_append_eq_add,
      BitVec.extractLsb'_toNat, Nat.shiftRight_eq_div_pow] <;> omega

end frames

theorem halves_withLo (d : DWord) (v : Word) : loHalf (withLo d v) = v ∧ hiHalf (withLo d v) = hiHalf d := by
  constructor <;> apply BitVec.eq_of_toNat_eq <;>
    simp only [withLo, loHalf_toNat, hiHalf_toNat, toNat_append_eq_add] <;> omega

theorem halves_withHi (d : DWord) (v : Word) : loHalf (withHi d v) = loHalf d ∧ hiHalf (withHi d v) = v := by
  constructor <;> apply BitVec.eq_of_toNat_eq <;>
    simp only [withHi, loHalf_toNat, hiHalf_toNat, toNat_append_eq_add] <;> omega

/-- A write to an input register stores its writable bits (R28, R29, R42, R43). -/
theorem readReg_writeInput_same {r : Reg} {m : Word} (hm : writableMask r = some m) (s : State) (v : Word) :
    readReg (writeInput s v r) r = v &&& m := by
  cases r <;> simp only [writableMask, reduceCtorEq, Option.some.injEq] at hm <;> subst hm <;>
    simp only [writeInput, readReg, frameLenWord, slotFWord, cprRawWord, writeSlotF, writeSlotLat, writeSlotLon,
      writeSlotTsLo, writeSlotTsHi, frameWords_withFrameWord0, frameWords_withFrameWord1,
      frameWords_withFrameWord2, frameWords_withFrameWord3, halves_withLo, halves_withHi, and_byteMask,
      and_bitMask, and_coordinateMask, and_highHalfMask, and_fullMask]

/-- A write to a register leaves every other one, also of the same field of the state, as it was. -/
theorem readReg_writeInput_of_ne {r g : Reg} (hne : g ≠ r) (s : State) (v : Word) :
    readReg (writeInput s v r) g = readReg s g := by
  cases g with
  | frameLen =>
    cases r with
    | frameLen => exact absurd rfl hne
    | _ => rfl
  | frame0 | frame1 | frame2 | frame3 =>
    cases r with
    | frame0 | frame1 | frame2 | frame3 =>
      simp_all only [ne_eq, not_true_eq_false, writeInput, readReg, frameWords_withFrameWord0,
        frameWords_withFrameWord1, frameWords_withFrameWord2, frameWords_withFrameWord3]
    | _ => rfl
  | slot0F | slot0Lat | slot0Lon | slot0TsLo | slot0TsHi =>
    cases r with
    | slot0F | slot0Lat | slot0Lon | slot0TsLo | slot0TsHi =>
      simp_all only [ne_eq, not_true_eq_false, writeInput, readReg, slotFWord, writeSlotF, writeSlotLat,
        writeSlotLon, writeSlotTsLo, writeSlotTsHi, halves_withLo, halves_withHi]
    | _ => rfl
  | slot1F | slot1Lat | slot1Lon | slot1TsLo | slot1TsHi =>
    cases r with
    | slot1F | slot1Lat | slot1Lon | slot1TsLo | slot1TsHi =>
      simp_all only [ne_eq, not_true_eq_false, writeInput, readReg, slotFWord, writeSlotF, writeSlotLat,
        writeSlotLon, writeSlotTsLo, writeSlotTsHi, halves_withLo, halves_withHi]
    | _ => rfl
  | refLatLo | refLatHi | refLonLo | refLonHi | nlLatLo | nlLatHi =>
    cases r with
    | refLatLo | refLatHi | refLonLo | refLonHi | nlLatLo | nlLatHi =>
      simp_all only [ne_eq, not_true_eq_false, writeInput, readReg, halves_withLo, halves_withHi]
    | _ => rfl
  | _ => exact (writeInput_sameOutputs s v r).readReg rfl

/-- Settles O12: an input register takes its writable bits, every other register keeps its value. -/
theorem inputWriteStoresWritableBits : Obligations.InputWriteStoresWritableBits := by
  intro s r m v rest hreset hm hmove
  have hcmd : r ≠ .cmd := by rintro rfl; cases hm
  refine ⟨{ writeInput { s with events := rest } v r with response := .nothing }, ?_, ?_, ?_, ?_, ?_, ?_, ?_, rfl⟩
  · rw [step_cons hmove]
    refine (hostWrite_register (s := { s with events := rest }) hreset r v).trans ?_
    rw [writeReg, if_neg hcmd]
  · exact readReg_writeInput_same hm { s with events := rest } v
  · exact fun g hg => readReg_writeInput_of_ne (by simpa using hg) { s with events := rest } v
  · exact writeInput_cst _ v r
  · exact writeInput_now _ v r
  · exact writeInput_basePage _ v r
  · exact writeInput_events _ v r

/-! ## Acceptance, completion and the sample -/

/-- CST, DONE and LASTOP show in STATUS only (R25, R46). -/
theorem readReg_withStatus {r : Reg} (hr : r ≠ .status) (s : State) (c : Cst) (done : Bool) (op : BitVec 8) :
    readReg { s with cst := c, done := done, lastop := op } r = readReg s r := by
  cases r with
  | status => exact absurd rfl hr
  | _ => rfl

/-- Settles O6: PEND, BUSY, DONE and LASTOP are all that acceptance writes. -/
theorem acceptanceLatchesInputs : Obligations.AcceptanceLatchesInputs := by
  intro w s
  refine ⟨⟨_, rfl, rfl, rfl, rfl⟩, ?_, fun r hr => ?_, rfl, rfl, rfl, rfl, rfl⟩
  · apply BitVec.eq_of_toNat_eq
    simp only [readReg, statusWord_toNat, toNat_append_eq_add, BitVec.toNat_ofNat]
    simp [busyFlag, faultFlag, opField]
    omega
  · exact readReg_withStatus (by simpa using hr) s _ _ _

/-- A sample move while a command is pending: NOW goes to PEND unless a sample stands there (R48). -/
theorem sampleNow_busy {s : State} {p : Pending} (hs : s.cst = .busy p) :
    sampleNow s = { s with cst := .busy { p with sampled := some (p.sampled.getD s.now) } } := by
  obtain ⟨w, snap, sampled⟩ := p
  cases sampled with
  | none => simp [sampleNow, hs]
  | some t =>
    have hkeep : sampleNow s = s := by simp [sampleNow, hs]
    rw [hkeep, Option.getD_some, ← hs]

/-- Settles O23: the sample stands in PEND, which no register shows. -/
theorem sampleTakenOnce : Obligations.SampleTakenOnce := by
  intro s p rest hs hmove
  refine ⟨_, (step_cons hmove).trans (congrArg Host.Outcome.next
    (sampleNow_busy (s := { s with events := rest }) hs)), rfl, fun r => ?_, rfl⟩
  cases r with
  | status => simp only [readReg, statusWord, busyFlag, faultFlag, hs]
  | _ => rfl

end Sys2Proof.Proofs
end

section
/-! What a completion leaves in the registers: a command's results depend on its snapshot and its sample of NOW
alone (R22, R47), its message is stamped with that sample (R108, R218), and the decoders write the header (R105). -/

namespace Sys2Proof.Proofs

open Sys2Proof.Machine Sys2Proof.Claims

/-! ## The registers of one result -/

section groups
variable {s t : State}

theorem readReg_resRegs (h0 : t.res0 = s.res0) (h1 : t.res1 = s.res1) :
    ∀ r ∈ resRegs, readReg t r = readReg s r := by
  simp only [resRegs, List.forall_mem_cons]
  simp [readReg, h0, h1]

theorem readReg_crcRegs (hF : t.cframe = s.cframe) (hc : t.crcInfo = s.crcInfo) :
    ∀ r ∈ crcRegs, readReg t r = readReg s r := by
  simp only [crcRegs, List.forall_mem_cons]
  simp [readReg, hF, hc]

theorem readReg_msgRegs (h : t.msg = s.msg) : ∀ r ∈ msgRegs, readReg t r = readReg s r := by
  simp only [msgRegs, List.forall_mem_cons]
  simp [readReg, h]

theorem readReg_cprRegs (h : t.cpr = s.cpr) : ∀ r ∈ cprRegs, readReg t r = readReg s r := by
  simp only [cprRegs, List.forall_mem_cons]
  simp [readReg, h]

theorem readReg_slotRegs {n : BitVec 1} (h0 : n = 0 → t.slot0 = s.slot0) (h1 : n ≠ 0 → t.slot1 = s.slot1) :
    ∀ r ∈ slotRegs n, readReg t r = readReg s r := by
  by_cases hn : n = 0
  · simp only [slotRegs, if_pos hn, List.forall_mem_cons]
    simp [readReg, h0 hn]
  · simp only [slotRegs, if_neg hn, List.forall_mem_cons]
    simp [readReg, h1 hn]

end groups

/-! ## Results from the snapshot -/

/-- Of two states with one pending command and one sample of NOW: the results are the same, those of the CRC only
where a DECODE reaches them (R102). -/
theorem readReg_resultsOf {i : Instr} {p : Pending} {s s' : State} (hts : timestamp p s' = timestamp p s) :
    ∀ r ∈ writtenRegs i, (r ∈ crcRegs → i = .decode → p.snap.frameLen = 112#8) →
      readReg (finish (resultsOf i p s')) r = readReg (finish (resultsOf i p s)) r := by
  intro r hr hlen
  cases i with
  | nop => cases hr
  | extract | gray3 | alt12 | cprNl => refine readReg_resRegs ?_ ?_ r hr <;> rfl
  | crcCheck | crcCorrect => refine readReg_crcRegs ?_ ?_ r hr <;> rfl
  | decode =>
    rcases List.mem_append.1 hr with hmsg | hcrc
    · refine readReg_msgRegs ?_ r hmsg
      simp only [finish_msg, resultsOf, hts]
      split <;> rfl
    · have hframe : p.snap.frameLen.toNat = Config.frameBits := by rw [hlen hcrc rfl]; rfl
      refine readReg_crcRegs ?_ ?_ r hcrc <;> simp [resultsOf, hframe]
  | decId | decPos | decVel =>
    refine readReg_msgRegs ?_ r hr
    simp only [finish_msg, resultsOf, setMsg_msg, hts]
  | posToSlot slot =>
    refine readReg_slotRegs (fun hz => ?_) (fun hz => ?_) r hr
    · simp only [resultsOf, finish_slot0, setSlot_slot0, if_pos hz]
    · simp only [resultsOf, finish_slot1, setSlot_slot1, if_neg hz]
  | cprResolve =>
    refine readReg_cprRegs ?_ r hr
    rfl

/-- A command whose source acceptance checked has legal operands. -/
theorem operandFault_eq_none {i : Instr} {p : Pending} (hwf : i.wellFormed = true)
    (hsrc : ∀ slot, i = .posToSlot slot → p.snap.msg.kind = .airbornePosition) : operandFault i p = none := by
  rw [operandFault, if_pos hwf]
  cases i with
  | posToSlot slot => simp [sourceFault, hsrc slot rfl]
  | _ => rfl

theorem timestamp_congr {p : Pending} {s s' : State} (h : s'.now = s.now) : timestamp p s' = timestamp p s := by
  unfold timestamp
  rw [h]

/-- Settles O25: both completions write their results from the same snapshot and sample. -/
theorem resultsDependOnSnapshotOnly : Obligations.ResultsDependOnSnapshotOnly := by
  intro i s s' t t' p hs hs' hnow hwf hsrc ht ht' r hr hlen
  have hnone := operandFault_eq_none hwf hsrc
  rw [exec_next hs hnone] at ht
  rw [exec_next hs' hnone] at ht'
  cases ht
  cases ht'
  exact readReg_resultsOf (timestamp_congr hnow) r hr hlen

/-! ## Input writes while a command runs -/

section sameOutputs
variable {s t : State} (h : SameOutputs s t)
include h

theorem SameOutputs.resultsOf (i : Instr) (p : Pending) :
    SameOutputs (resultsOf i p s) (resultsOf i p t) := by
  have hts : timestamp p t = timestamp p s := timestamp_congr h.now
  cases i with
  | nop => exact h
  | extract | gray3 | alt12 | cprNl => exact { h with res0 := rfl, res1 := rfl }
  | crcCheck | crcCorrect => exact { h with cframe := rfl, crcInfo := rfl }
  | decode =>
    simp only [Machine.resultsOf, hts]
    split
    · exact { h with msg := rfl }
    · exact { h with msg := rfl, cframe := rfl, crcInfo := rfl }
  | decId | decPos | decVel =>
    simp only [Machine.resultsOf, hts]
    exact { h with msg := rfl }
  | posToSlot slot =>
    simp only [Machine.resultsOf, setSlot]
    split <;> exact { h with }
  | cprResolve => exact { h with cpr := rfl }

theorem SameOutputs.finish : SameOutputs (finish s) (finish t) :=
  ⟨rfl, rfl, rfl, h.lastop, h.faultCode, h.faultCmd, h.cframe, h.crcInfo, h.res0, h.res1, h.msg, h.cpr, h.now⟩

theorem SameOutputs.raiseFault (code : FaultCode) (w : Word) :
    SameOutputs (raiseFault code w s) (raiseFault code w t) :=
  ⟨rfl, rfl, rfl, h.lastop, rfl, rfl, h.cframe, h.crcInfo, h.res0, h.res1, h.msg, h.cpr, h.now⟩

end sameOutputs

/-- A pending command whose operands acceptance would have refused takes that fault (log 12). -/
theorem exec_fault {i : Instr} {s : State} {p : Pending} {code : FaultCode} (hs : s.cst = .busy p)
    (ho : operandFault i p = some code) : exec i s = .next (raiseFault code p.word s) := by
  rw [exec_eq_completing, completing_busy hs, ho]

theorem crcRegs_readOnly : ∀ g ∈ crcRegs, writableMask g = none := by decide

/-- Settles O19: the write touches neither the snapshot nor what the read-only registers show. -/
theorem runningCommandIgnoresInputWrites : Obligations.RunningCommandIgnoresInputWrites := by
  intro i s t r v hcmd hexec
  have hout := writeInput_sameOutputs s v r
  have hcst := writeInput_cst s v r
  rw [writeReg, if_neg hcmd]
  obtain ⟨p, hs, ⟨hnone, rfl⟩ | ⟨code, hcode, rfl⟩⟩ := exec_cases hexec
  · refine ⟨_, exec_next (hcst.trans hs) hnone, fun g hg => ?_⟩
    by_cases hmask : writableMask g = none
    · exact (hout.resultsOf i p).finish.readReg hmask
    · obtain ⟨-, hwritten⟩ := hg.resolve_left hmask
      exact readReg_resultsOf (timestamp_congr hout.now) g hwritten
        fun hcrc => absurd (crcRegs_readOnly g hcrc) hmask
  · refine ⟨_, exec_fault (hcst.trans hs) hcode, fun g hg => ?_⟩
    exact (hout.raiseFault code p.word).readReg (hg.resolve_right fun hidle => Cst.noConfusion hidle.1)

/-! ## The sample of NOW -/

/-- The header of a constructed message (R105, R108). -/
theorem makeMsg_header (kind : MsgKind) (X : Frame) (ts : DWord) :
    (makeMsg kind X ts).kind = kind ∧ (makeMsg kind X ts).reason = .ok ∧
    (makeMsg kind X ts).icao = BitVec.ofNat 24 (fld X 8 24) ∧
    (makeMsg kind X ts).tc = BitVec.ofNat 5 (fld X 32 5) ∧
    (makeMsg kind X ts).df = BitVec.ofNat 5 (fld X 0 5) ∧ (makeMsg kind X ts).ts = ts := by
  cases kind <;> exact ⟨rfl, rfl, rfl, rfl, rfl, rfl⟩

theorem timestamp_eq_getD (p : Pending) (s : State) : timestamp p s = p.sampled.getD s.now := by
  unfold timestamp
  cases p.sampled <;> rfl

/-- `x` is the value NOW has, or the sample of the pending command (R48). -/
def IsSample (s : State) (x : DWord) : Prop :=
  x = s.now ∨ ∃ p, s.cst = .busy p ∧ p.sampled = some x

theorem IsSample.within {low : Nat} {s : State} {x : DWord} (h : IsSample s x) (hw : samplesWithin low s) :
    low ≤ x.toNat ∧ x.toNat ≤ s.now.toNat := by
  obtain rfl | ⟨p, hs, hx⟩ := h
  · exact ⟨hw.1, le_rfl⟩
  · exact hw.2 p hs x hx

theorem isSample_timestamp {s : State} {p : Pending} (hs : s.cst = .busy p) : IsSample s (timestamp p s) := by
  rw [timestamp_eq_getD]
  cases hx : p.sampled with
  | none => exact .inl rfl
  | some x => exact .inr ⟨p, hs, hx⟩

/-- Every sample that `t` holds pending, and the stamp of a message it newly holds, is a sample of `s`. -/
structure StampsFrom (s t : State) : Prop where
  pending : ∀ p, t.cst = .busy p → ∀ x, p.sampled = some x → IsSample s x
  message : t.msg ≠ s.msg → t.msg.kind ≠ .noMessage → IsSample s t.msg.ts

theorem stampsFrom_of_keeps {s t : State} (hcst : t.cst = s.cst) (hmsg : t.msg = s.msg) : StampsFrom s t :=
  ⟨fun p hp _ hx => .inr ⟨p, hcst ▸ hp, hx⟩, fun h => absurd hmsg h⟩

theorem stampsFrom_of_not_busy {s t : State} (hcst : ∀ p, t.cst ≠ .busy p) (hmsg : t.msg = s.msg) :
    StampsFrom s t :=
  ⟨fun p hp => absurd hp (hcst p), fun h => absurd hmsg h⟩

theorem raiseFault_stampsFrom (code : FaultCode) (w : Word) (s : State) : StampsFrom s (raiseFault code w s) :=
  stampsFrom_of_not_busy (fun _ h => Cst.noConfusion h) rfl

theorem hostCommand_stampsFrom (w : Word) (s : State) : StampsFrom s (hostCommand w s) := by
  rcases hostCommand_cases w s with ⟨-, h⟩ | ⟨-, h⟩ | ⟨-, e, -, h⟩ | ⟨-, i, code, -, -, h⟩ | ⟨-, i, -, -, h⟩ <;>
    rw [h]
  · exact stampsFrom_of_keeps rfl rfl
  · exact raiseFault_stampsFrom _ w s
  · exact raiseFault_stampsFrom _ w s
  · exact raiseFault_stampsFrom _ w s
  · refine ⟨fun p hp x hx => ?_, fun h => absurd rfl h⟩
    cases hp
    cases hx

theorem writeOffset_stampsFrom (s : State) (off : Nat) (v : Word) : StampsFrom s (writeOffset s off v) := by
  rcases writeOffset_cases s off v with h | ⟨r, -, h⟩ | h <;> rw [h]
  · exact stampsFrom_of_keeps rfl rfl
  · exact stampsFrom_of_keeps (writeInput_cst s v r) (writeInput_msg s v r)
  · exact hostCommand_stampsFrom v s

theorem sampleNow_stampsFrom (s : State) : StampsFrom s (sampleNow s) := by
  rcases sampleNow_cases s with h | ⟨p, -, -, h⟩ <;> rw [h]
  · exact stampsFrom_of_keeps rfl rfl
  · refine ⟨fun q hq x hx => ?_, fun h => absurd rfl h⟩
    cases hq
    cases hx
    exact .inl rfl

theorem exec_stampsFrom {i : Instr} {s t : State} (h : exec i s = .next t) : StampsFrom s t := by
  obtain ⟨p, hs, ⟨-, rfl⟩ | ⟨code, -, rfl⟩⟩ := exec_cases h
  · refine ⟨fun q hq => Cst.noConfusion hq, fun hne hkind => ?_⟩
    rw [finish_msg] at hne hkind ⊢
    rcases resultsOf_msg_cases i p s with hm | ⟨r, hm⟩ | ⟨kind, X, -, hm⟩
    · exact absurd hm hne
    · exact absurd (by rw [hm]; rfl) hkind
    · obtain ⟨-, -, -, -, -, hts⟩ := makeMsg_header kind X (timestamp p s)
      rw [hm, hts]
      exact isSample_timestamp hs
  · exact raiseFault_stampsFrom code p.word s

theorem blockStep_stampsFrom {s t : State} (h : blockStep s = .next t) : StampsFrom s t := by
  obtain ⟨rfl, -⟩ | ⟨p, i, -, -, hexec⟩ := blockStep_cases h
  · exact stampsFrom_of_keeps rfl rfl
  · exact exec_stampsFrom hexec

theorem step_stampsFrom {s t : State} (h : step s = .next t) : StampsFrom s t := by
  rcases step_cases h with ⟨-, hb⟩ | ⟨rest, ⟨addr, size, -, hr⟩ | ⟨addr, size, v, -, hw⟩ | ⟨-, hb⟩ | ⟨-, rfl⟩ |
    ⟨ms, -, rfl⟩ | ⟨-, rfl⟩ | ⟨-, rfl⟩⟩
  · exact blockStep_stampsFrom hb
  · obtain ⟨-, off, -, rfl⟩ := hostRead_cases hr
    exact stampsFrom_of_keeps rfl rfl
  · obtain ⟨-, off, -, rfl⟩ := hostWrite_cases hw
    obtain ⟨hpend, hmsg⟩ := writeOffset_stampsFrom { s with events := rest } off v
    exact ⟨hpend, hmsg⟩
  · obtain ⟨hpend, hmsg⟩ := blockStep_stampsFrom hb
    exact ⟨hpend, hmsg⟩
  · obtain ⟨hpend, hmsg⟩ := sampleNow_stampsFrom { s with events := rest }
    exact ⟨hpend, hmsg⟩
  · exact stampsFrom_of_keeps rfl rfl
  · exact ⟨fun _ hp => Cst.noConfusion hp, fun _ hkind => absurd rfl hkind⟩
  · exact stampsFrom_of_keeps rfl rfl

/-- A schedule that keeps NOW non-decreasing does so from any earlier value. -/
theorem nowMonotone_of_le {a b : DWord} (hab : a.toNat ≤ b.toNat) {es : List Event}
    (h : nowMonotone b es = true) : nowMonotone a es = true := by
  induction es with
  | nil => rfl
  | cons e rest ih =>
    cases e with
    | driveNow ms =>
      simp only [nowMonotone, Bool.and_eq_true, decide_eq_true_eq] at h ⊢
      exact ⟨hab.trans h.1, h.2⟩
    | _ => exact ih h

theorem nowMonotone_tail {now : DWord} {es : List Event} (h : nowMonotone now es = true) :
    nowMonotone now es.tail = true := by
  cases es with
  | nil => rfl
  | cons e rest =>
    cases e with
    | driveNow ms =>
      simp only [nowMonotone, Bool.and_eq_true, decide_eq_true_eq] at h
      exact nowMonotone_of_le h.1 h.2
    | _ => exact h

/-- The platform's duty after a step, and what it says of that step (R218). -/
theorem nowMonotone_step {s t : State} (h : nowMonotone s.now s.events = true) (hstep : step s = .next t) :
    s.now.toNat ≤ t.now.toNat ∧ nowMonotone t.now t.events = true := by
  obtain ⟨-, hnow⟩ | ⟨ms, rest, he, rfl⟩ := step_samePlatform_or_driveNow hstep
  · rw [hnow, step_events hstep]
    exact ⟨le_rfl, nowMonotone_tail h⟩
  · simpa only [he, nowMonotone, Bool.and_eq_true, decide_eq_true_eq] using h

/-- Settles O22: a step only hands on samples, and NOW does not fall. -/
theorem samplesStayWithinNow : Obligations.SamplesStayWithinNow := by
  intro low s t hmono hwithin hstep
  obtain ⟨hle, hmono'⟩ := nowMonotone_step hmono hstep
  obtain ⟨hpend, hmsg⟩ := step_stampsFrom hstep
  have hbounds {x : DWord} (hx : IsSample s x) : low ≤ x.toNat ∧ x.toNat ≤ t.now.toNat :=
    ⟨(hx.within hwithin).1, (hx.within hwithin).2.trans hle⟩
  exact ⟨⟨hwithin.1.trans hle, fun p hp x hx => hbounds (hpend p hp x hx)⟩, hmono',
    fun hne hkind => hbounds (hmsg hne hkind)⟩

/-! ## The header -/

/-- STATUS after a completion: DONE alone beside LASTOP (R25, R65). -/
theorem readReg_status_finish (s : State) : readReg (finish s) .status = 0#16 ++ s.lastop ++ 0x02#8 := by
  apply BitVec.eq_of_toNat_eq
  simp only [readReg, statusWord_toNat, toNat_append_eq_add, BitVec.toNat_ofNat]
  simp [busyFlag, faultFlag]
  omega

/-- A command that writes the MSG record alone. -/
theorem completesWriting_setMsg (m : MsgRecord) (s : State) :
    CompletesWriting msgRegs s (finish (setMsg m s)) := by
  refine ⟨rfl, readReg_status_finish (setMsg m s), fun r hr => ?_, rfl, rfl, rfl, rfl, rfl⟩
  rw [List.mem_cons, not_or] at hr
  refine (readReg_withStatus hr.1 (setMsg m s) _ _ _).trans ?_
  cases r with
  | msgKind | msgIcao | msgTcdf | msgTsLo | msgTsHi | idCat | idNameLen | idName0 | idName1 | posFlags
  | posAltRaw | posAlt | posAltInfo | posLatCpr | posLonCpr | velSub | velEw | velNs | velVr | velSpeedLo
  | velSpeedHi | velHdgLo | velHdgHi => exact absurd (by decide) hr.2
  | _ => rfl

/-- A field of the frame fits its register (R12, R80). -/
theorem toNat_ofNat_fld {F : Frame} {a n : Nat} (h : a + n ≤ 112) :
    (BitVec.ofNat n (fld F a n)).toNat = fieldOf F a n := by
  rw [BitVec.toNat_ofNat, Nat.mod_eq_of_lt (fld_lt F a n), fld_eq_div_mod F a n h, fieldOf]

/-- The header of a message a decoder leaves in the record. -/
theorem header_of_setMsg (kind : MsgKind) (p : Pending) (s : State) :
    let t := finish (setMsg (makeMsg kind p.snap.frame (timestamp p s)) s)
    (readReg t .msgKind).toNat = kindNumber kind ∧ t.msg.kind = kind ∧
    (readReg t .msgIcao).toNat = fieldOf p.snap.frame 8 24 ∧
    (readReg t .msgTcdf).toNat = fieldOf p.snap.frame 0 5 * 256 + fieldOf p.snap.frame 32 5 ∧
    readReg t .msgTsHi ++ readReg t .msgTsLo = p.sampled.getD s.now := by
  rw [timestamp_eq_getD]
  obtain ⟨hkind, hreason, hicao, htc, hdf, hts⟩ := makeMsg_header kind p.snap.frame (p.sampled.getD s.now)
  simp only [readReg, finish_msg, setMsg_msg, msgKindWord_toNat, msgIcaoWord_toNat, msgTcdfWord_toNat,
    hiHalf_append_loHalf, hkind, hreason, hicao, htc, hdf, hts,
    toNat_ofNat_fld (F := p.snap.frame) (a := 8) (n := 24) (by decide),
    toNat_ofNat_fld (F := p.snap.frame) (a := 32) (n := 5) (by decide),
    toNat_ofNat_fld (F := p.snap.frame) (a := 0) (n := 5) (by decide), reasonNumber, and_true, true_and]
  omega

/-- Settles O39: the three decoders put a message of their own kind in the record. -/
theorem decodersWriteHeader : Obligations.DecodersWriteHeader := by
  intro s p i k n hs hi
  obtain ⟨rfl, rfl, rfl⟩ | ⟨rfl, rfl, rfl⟩ | ⟨rfl, rfl, rfl⟩ := hi
  · obtain ⟨h1, h2, h3, h4, h5⟩ := header_of_setMsg .identification p s
    exact ⟨_, exec_next hs rfl, completesWriting_setMsg _ s, h1, h2, h3, h4, h5, fun h => absurd rfl h, fun _ => rfl,
      fun _ => rfl⟩
  · obtain ⟨h1, h2, h3, h4, h5⟩ := header_of_setMsg .airbornePosition p s
    exact ⟨_, exec_next hs rfl, completesWriting_setMsg _ s, h1, h2, h3, h4, h5, fun _ => rfl, fun h => absurd rfl h,
      fun _ => rfl⟩
  · obtain ⟨h1, h2, h3, h4, h5⟩ := header_of_setMsg .velocity p s
    exact ⟨_, exec_next hs rfl, completesWriting_setMsg _ s, h1, h2, h3, h4, h5, fun _ => rfl, fun _ => rfl,
      fun h => absurd rfl h⟩

end Sys2Proof.Proofs
end

section
/-! CPR_RESOLVE branch by branch (R163): the intermediate values of its steps by name. -/

namespace Sys2Proof.Proofs

open Sys2Proof.Machine Sys2Proof.Claims

/-- The even message is strictly newer: the choice of step 4 (R163, R167). -/
def pairEven (E O : Slot) : Bool := O.ts.toNat < E.ts.toNat

/-- USED of that choice (R44). -/
def usedBit (useEven : Bool) : BitVec 1 := if useEven then 0 else 1

/-- `j` of a pair (R163, step 2). -/
def pairJ (E O : Slot) : Int := cprJIndex (cprNormal E.lat) (cprNormal O.lat)

/-- The selected latitude of a pair (R163, steps 3 and 4). -/
def pairLat (E O : Slot) : F64 :=
  if pairEven E O then latEven (pairJ E O) (cprNormal E.lat) else latOdd (pairJ E O) (cprNormal O.lat)

/-- The zone count of the selected latitude (R163, step 5). -/
def pairZones (E O : Slot) : Nat := nlZones (toBits (pairLat E O))

/-- The zone width of step 7 (R163, R169). -/
def zoneWidth (useEven : Bool) (nl : Nat) : F64 :=
  divF (f64 360) (f64 (max (nl - (if useEven then 0 else 1)) 1 : Nat))

/-- The first longitude of step 7 (R163, R169). -/
def firstLongitude (useEven : Bool) (nl : Nat) (ge go : F64) : F64 :=
  mulF (zoneWidth useEven nl)
    (addF (f64 (fmodz (cprMIndex nl ge go) (max (nl - (if useEven then 0 else 1)) 1)))
      (if useEven then ge else go))

/-- The multiple of the zone width that moves a longitude towards the reference (R163, step 8). -/
def longitudeShift (r lon0 dlon : F64) : F64 := mulF (f64 (nearestZone r lon0 dlon)) dlon

/-- The longitude moved towards the reference, before the wrap (R163, step 8). -/
def movedLongitude (useEven : Bool) (nl : Nat) (ge go r : F64) : F64 :=
  addF (firstLongitude useEven nl ge go)
    (longitudeShift r (firstLongitude useEven nl ge go) (zoneWidth useEven nl))

/-- Steps 6 to 8 by the one test they make (R163, R170). -/
theorem resolveLongitude_eq (useEven : Bool) (lat : F64) (nl : Nat) (j : Int) (ge go r : F64) :
    resolveLongitude useEven lat nl j ge go r =
      if isFinite (movedLongitude useEven nl ge go r) then
        { valid := true, reason := .ok, used := usedBit useEven, nl := BitVec.ofInt 32 nl,
          j := BitVec.ofInt 32 j, m := BitVec.ofInt 32 (cprMIndex nl ge go), lat := toBits lat,
          lon := toBits (wrap180 (fmodF (movedLongitude useEven nl ge go r) (f64 360))) }
      else cprInvalid .ref (usedBit useEven) nl j (cprMIndex nl ge go) := rfl

/-- The resolver by the three tests it makes (R163, R165, R168, R170). -/
theorem resolvePair_eq (E O : Slot) (refLon : DWord) :
    resolvePair E O refLon =
      if Config.pairWindow < tsDistance E.ts O.ts then cprInvalid .stale 0 0 0 0
      else if pairZones E O = 0 then cprInvalid .nl (usedBit (pairEven E O)) 0 (pairJ E O) 0
      else if isFinite (ofBits refLon) then
        resolveLongitude (pairEven E O) (pairLat E O) (pairZones E O) (pairJ E O) (cprNormal E.lon)
          (cprNormal O.lon) (ofBits refLon)
      else cprInvalid .ref (usedBit (pairEven E O)) (pairZones E O) (pairJ E O) 0 := rfl

end Sys2Proof.Proofs
end

section
/-! The legal states (R25 to R27, R31, R33, R44, R47, R230): the clauses on the block's own registers, which the
platform's inputs, the schedule and the host's answer do not enter, and every step keeps them. -/

namespace Sys2Proof.Proofs

open Sys2Proof.Machine Sys2Proof.Claims

/-! ## The results are legal -/

theorem msgLegal_rejectMsg (r : MsgReason) : msgLegal (rejectMsg r) = true := by cases r <;> decide

theorem msgLegal_makeMsg {kind : MsgKind} (hk : kind ≠ .noMessage) (X : Frame) (ts : DWord) :
    msgLegal (makeMsg kind X ts) = true := by
  cases kind with
  | noMessage => exact absurd rfl hk
  | identification =>
    have hlen : (BitVec.ofNat 4 (trimmedLen (nameChar X) 8)).toNat ≤ 8 :=
      (Nat.mod_le _ _).trans (trimmedLen_spec (nameChar X) 8).1
    simpa [msgLegal, makeMsg, msgHeader, MsgRecord.zero, idFields] using hlen
  | airbornePosition => simp [msgLegal, makeMsg, msgHeader, MsgRecord.zero]
  | velocity => simp [msgLegal, makeMsg, msgHeader, MsgRecord.zero]

theorem msgLegal_resultsOf {i : Instr} {p : Pending} {s : State} (h : msgLegal s.msg = true) :
    msgLegal (resultsOf i p s).msg = true := by
  rcases resultsOf_msg_cases i p s with hm | ⟨r, hm⟩ | ⟨kind, X, hk, hm⟩ <;> rw [hm]
  · exact h
  · exact msgLegal_rejectMsg r
  · exact msgLegal_makeMsg hk X _

/-- `crcLegal` in terms of the two fields it speaks of. -/
theorem crcLegal_of_fields {s : State} {F : Frame} {c : CrcInfo} (hF : s.cframe = F) (hc : s.crcInfo = c)
    (h : (c.pass = true ∧ crc24 F = 0#24 ∧
        ((c.flip = Config.noFlip ∧ c.syndrome = 0#24) ∨
          (c.flip ≠ Config.noFlip ∧ c.flip.toNat < 112 ∧ c.syndrome ≠ 0#24))) ∨
      (c.pass = false ∧ c.flip = Config.noFlip)) : crcLegal s = true := by
  unfold crcLegal
  rw [hF, hc]
  rcases h with ⟨hp, hz, ⟨hf, hs⟩ | ⟨hf, hlt, hs⟩⟩ | ⟨hp, hf⟩
  · simp [hp, hz, hf, hs]
  · simp [hp, hz, hf, hlt, hs]
  · simp [hp, hf]

/-- The index of a flipped bit is not the value that says no bit was flipped. -/
theorem ofNat_ne_noFlip {i : Nat} (hi : i < 112) :
    BitVec.ofNat 7 i ≠ Config.noFlip ∧ (BitVec.ofNat 7 i).toNat < 112 := by
  have hmod : (BitVec.ofNat 7 i).toNat = i := by rw [BitVec.toNat_ofNat]; omega
  refine ⟨fun h => ?_, by omega⟩
  have : i = 127 := by rw [← hmod, h]; rfl
  omega

theorem crcLegal_resultsOf {i : Instr} {p : Pending} {s : State} (h : crcLegal s = true) :
    crcLegal (resultsOf i p s) = true := by
  rcases resultsOf_crc_cases i p s with ⟨hF, hc⟩ | ⟨hF, hc⟩ | ⟨hF, hc⟩
  · rw [← h]
    unfold crcLegal
    rw [hF, hc]
  · refine crcLegal_of_fields hF hc ?_
    by_cases hz : crc24 p.snap.frame = 0
    · exact .inl ⟨by simp [hz], hz, .inl ⟨rfl, hz⟩⟩
    · exact .inr ⟨decide_eq_false hz, rfl⟩
  · refine crcLegal_of_fields hF hc ?_
    rcases crcFix_cases p.snap.frame with ⟨hz, hr⟩ | ⟨hz, k, hk, hflip, -, hr⟩ | ⟨-, -, hr⟩ <;>
      rw [hr]
    · exact .inl ⟨rfl, hz, .inl ⟨rfl, rfl⟩⟩
    · exact .inl ⟨rfl, hflip, .inr ⟨(ofNat_ne_noFlip hk).1, (ofNat_ne_noFlip hk).2, hz⟩⟩
    · exact .inr ⟨rfl, rfl⟩

theorem cprLegal_cprInvalid {reason : CprReason} (h : reason ≠ .ok) (used : BitVec 1) (nl j m : Int) :
    cprLegal (cprInvalid reason used nl j m) = true := by
  simp [cprLegal, cprInvalid, h]

theorem cprLegal_resolvePair (E O : Slot) (refLon : DWord) : cprLegal (resolvePair E O refLon) = true := by
  rw [resolvePair_eq]
  split
  · exact cprLegal_cprInvalid (by decide) _ _ _ _
  · split
    · exact cprLegal_cprInvalid (by decide) _ _ _ _
    · split
      · rw [resolveLongitude_eq]
        split
        · rfl
        · exact cprLegal_cprInvalid (by decide) _ _ _ _
      · exact cprLegal_cprInvalid (by decide) _ _ _ _

theorem cprLegal_cprResolve (s0 s1 : Slot) (refLon : DWord) : cprLegal (cprResolve s0 s1 refLon) = true := by
  unfold cprResolve
  split
  · exact cprLegal_cprInvalid (by decide) _ _ _ _
  · split <;> exact cprLegal_resolvePair ..

theorem cprLegal_resultsOf {i : Instr} {p : Pending} {s : State} (h : cprLegal s.cpr = true) :
    cprLegal (resultsOf i p s).cpr = true := by
  rcases resultsOf_cpr_cases i p s with hc | hc <;> rw [hc]
  · exact h
  · exact cprLegal_cprResolve ..

/-! ## The clauses on the block's own registers -/

/-- The clauses of `legalState` on the block's own registers, without that of a held reset. -/
structure BlockLegal (s : State) : Prop where
  flags : flagsLegal s = true
  faultRegs : faultRegsLegal s = true
  pending : pendingLegal s = true
  lastop : lastopLegal s = true
  crc : crcLegal s = true
  msg : msgLegal s.msg = true
  cpr : cprLegal s.cpr = true

theorem legalState_iff (s : State) : legalState s = true ↔ BlockLegal s ∧ resetHeld s = true := by
  simp only [legalState, Bool.and_eq_true]
  exact ⟨fun ⟨⟨⟨⟨⟨⟨⟨h1, h2⟩, h3⟩, h4⟩, h5⟩, h6⟩, h7⟩, h8⟩ => ⟨⟨h1, h2, h3, h4, h5, h6, h7⟩, h8⟩,
    fun ⟨⟨h1, h2, h3, h4, h5, h6, h7⟩, h8⟩ => ⟨⟨⟨⟨⟨⟨⟨h1, h2⟩, h3⟩, h4⟩, h5⟩, h6⟩, h7⟩, h8⟩⟩

/-- While a command is pending no fault is recorded. -/
theorem BlockLegal.noFault_of_busy {s : State} {p : Pending} (h : BlockLegal s) (hs : s.cst = .busy p) :
    s.faultCode = .noFault ∧ s.faultCmd = 0 := by
  simpa [faultRegsLegal, hs] using h.faultRegs

/-- The reset values are legal, whatever the platform's inputs are. -/
theorem blockLegal_resetBlock (s : State) : BlockLegal (resetBlock s) :=
  ⟨rfl, rfl, rfl, rfl, rfl, rfl, rfl⟩

theorem BlockLegal.raiseFault {s : State} (h : BlockLegal s) {code : FaultCode} (hc : code ≠ .noFault)
    (w : Word) : BlockLegal (raiseFault code w s) :=
  ⟨rfl, by simp [faultRegsLegal, hc], rfl, h.lastop, h.crc, h.msg, h.cpr⟩

theorem BlockLegal.acceptWord {s : State} (h : BlockLegal s) {w : Word} {i : Instr} (hs : s.cst = .idle)
    (hd : decode w = .ok i) (hsrc : sourceFault i s.msg.kind = none) : BlockLegal (acceptWord w s) where
  flags := rfl
  faultRegs := by simpa [faultRegsLegal, hs] using h.faultRegs
  pending := by simp [pendingLegal, hd, hsrc]
  lastop := by simpa [lastopLegal, decode_opcode hd] using opcode_le i
  crc := h.crc
  msg := h.msg
  cpr := h.cpr

theorem BlockLegal.hostCommand {s : State} (h : BlockLegal s) (w : Word) : BlockLegal (hostCommand w s) := by
  rcases hostCommand_cases w s with ⟨-, hw⟩ | ⟨-, hw⟩ | ⟨-, e, -, hw⟩ | ⟨-, i, code, -, hsrc, hw⟩ |
    ⟨hs, i, hd, hsrc, hw⟩ <;> rw [hw]
  · exact h
  · exact h.raiseFault (by decide) w
  · exact h.raiseFault (decodeFault_ne_noFault e) w
  · exact h.raiseFault (sourceFault_some hsrc ▸ by decide) w
  · exact h.acceptWord hs hd hsrc

/-- No clause speaks of an input register. -/
theorem BlockLegal.writeInput {s : State} (h : BlockLegal s) (v : Word) (r : Reg) :
    BlockLegal (writeInput s v r) where
  flags := by simpa [flagsLegal] using h.flags
  faultRegs := by simpa [faultRegsLegal] using h.faultRegs
  pending := by simpa [pendingLegal] using h.pending
  lastop := by simpa [lastopLegal] using h.lastop
  crc := by simpa [crcLegal] using h.crc
  msg := by simpa using h.msg
  cpr := by simpa using h.cpr

theorem BlockLegal.writeOffset {s : State} (h : BlockLegal s) (off : Nat) (v : Word) :
    BlockLegal (writeOffset s off v) := by
  rcases writeOffset_cases s off v with hw | ⟨r, -, hw⟩ | hw <;> rw [hw]
  · exact h
  · exact h.writeInput v r
  · exact h.hostCommand v

theorem BlockLegal.sampleNow {s : State} (h : BlockLegal s) : BlockLegal (sampleNow s) := by
  rcases sampleNow_cases s with hw | ⟨p, hp, -, hw⟩ <;> rw [hw]
  · exact h
  · exact ⟨by simpa [flagsLegal, hp] using h.flags, by simpa [faultRegsLegal, hp] using h.faultRegs,
      by simpa [pendingLegal, hp] using h.pending, h.lastop, h.crc, h.msg, h.cpr⟩

theorem BlockLegal.finish_resultsOf {s : State} {p : Pending} (h : BlockLegal s) (hs : s.cst = .busy p)
    (i : Instr) : BlockLegal (finish (resultsOf i p s)) := by
  obtain ⟨-, -, hlast, hcode, hcmd, -⟩ := resultsOf_keeps i p s
  obtain ⟨hnone, hzero⟩ := h.noFault_of_busy hs
  exact {
    flags := rfl
    faultRegs := by simp [faultRegsLegal, hcode, hcmd, hnone, hzero]
    pending := rfl
    lastop := by simpa [lastopLegal, hlast] using h.lastop
    crc := crcLegal_resultsOf (i := i) (p := p) h.crc
    msg := msgLegal_resultsOf h.msg
    cpr := cprLegal_resultsOf h.cpr }

theorem operandFault_ne_noFault {i : Instr} {p : Pending} {code : FaultCode}
    (h : operandFault i p = some code) : code ≠ .noFault := by
  unfold operandFault at h
  split at h
  · exact sourceFault_some h ▸ by decide
  · cases h; decide

theorem BlockLegal.exec {i : Instr} {s t : State} (h : BlockLegal s) (he : exec i s = .next t) :
    BlockLegal t := by
  obtain ⟨p, hs, ⟨-, rfl⟩ | ⟨code, hcode, rfl⟩⟩ := exec_cases he
  · exact h.finish_resultsOf hs i
  · exact h.raiseFault (operandFault_ne_noFault hcode) p.word

theorem BlockLegal.blockStep {s t : State} (h : BlockLegal s) (hb : blockStep s = .next t) :
    BlockLegal t := by
  obtain ⟨rfl, -⟩ | ⟨p, i, -, -, he⟩ := blockStep_cases hb
  · exact h
  · exact h.exec he

/-- The platform's inputs, the schedule and the host's answer enter no clause. -/
theorem BlockLegal.withOutside {s : State} (h : BlockLegal s) (now : DWord) (reset : Bool) (es : List Event)
    (resp : Response) :
    BlockLegal { s with now := now, resetAsserted := reset, events := es, response := resp } :=
  ⟨h.flags, h.faultRegs, h.pending, h.lastop, h.crc, h.msg, h.cpr⟩

theorem BlockLegal.step {s t : State} (h : BlockLegal s) (hstep : step s = .next t) : BlockLegal t := by
  rcases step_cases hstep with ⟨-, hb⟩ | ⟨rest, hmove⟩
  · exact h.blockStep hb
  have hrest : BlockLegal { s with events := rest } := h.withOutside _ _ rest _
  rcases hmove with ⟨addr, size, -, hr⟩ | ⟨addr, size, v, -, hw⟩ | ⟨-, hb⟩ | ⟨-, rfl⟩ | ⟨ms, -, rfl⟩ |
    ⟨-, rfl⟩ | ⟨-, rfl⟩
  · obtain ⟨-, off, -, rfl⟩ := hostRead_cases hr
    exact h.withOutside _ _ rest _
  · obtain ⟨-, off, -, rfl⟩ := hostWrite_cases hw
    exact (hrest.writeOffset off v).withOutside _ _ _ _
  · exact hrest.blockStep hb
  · exact hrest.sampleNow
  · exact h.withOutside ms _ rest _
  · exact blockLegal_resetBlock _
  · exact h.withOutside _ false rest _

/-! ## A held reset -/

theorem resetHeld_iff (s : State) : resetHeld s = true ↔ (s.resetAsserted = true → s = resetBlock s) := by
  cases h : s.resetAsserted <;> simp [resetHeld, h]

/-- A held block is its reset state with the platform's inputs, the schedule and the host's answer. -/
theorem resetHeld_withOutside {s : State} (h : resetHeld s = true) (now : DWord) (es : List Event) :
    resetHeld { s with now := now, events := es } = true := by
  rw [resetHeld_iff] at h ⊢
  intro ha
  have hs : s = resetBlock s := h ha
  rw [hs]
  rfl

/-- While reset is held the block's own step and its sample do nothing: nothing is pending. -/
theorem not_busy_of_resetHeld {s : State} {p : Pending} (h : resetHeld s = true) (hs : s.cst = .busy p) :
    s.resetAsserted = false := by
  rw [resetHeld_iff] at h
  by_contra ha
  have hidle : s.cst = .idle := by rw [h (by simpa using ha)]; rfl
  exact Cst.noConfusion (hs.symm.trans hidle)

theorem resetHeld_of_released {s : State} (h : s.resetAsserted = false) : resetHeld s = true := by
  simp [resetHeld, h]

theorem resetHeld_blockStep {s t : State} (h : resetHeld s = true) (hb : blockStep s = .next t) :
    resetHeld t = true := by
  obtain ⟨rfl, -⟩ | ⟨p, i, hs, -, he⟩ := blockStep_cases hb
  · exact h
  · obtain ⟨-, hreset, -⟩ := exec_sameOutside he
    exact resetHeld_of_released (hreset.trans (not_busy_of_resetHeld h hs))

theorem resetHeld_sampleNow {s : State} (h : resetHeld s = true) : resetHeld (sampleNow s) = true := by
  rcases sampleNow_cases s with hw | ⟨p, hp, -, hw⟩ <;> rw [hw]
  · exact h
  · exact resetHeld_of_released (not_busy_of_resetHeld (s := s) h hp)

theorem resetHeld_step {s t : State} (h : resetHeld s = true) (hstep : step s = .next t) :
    resetHeld t = true := by
  rcases step_cases hstep with ⟨-, hb⟩ | ⟨rest, hmove⟩
  · exact resetHeld_blockStep h hb
  have hrest : resetHeld { s with events := rest } = true := resetHeld_withOutside h _ rest
  rcases hmove with ⟨addr, size, -, hr⟩ | ⟨addr, size, v, -, hw⟩ | ⟨-, hb⟩ | ⟨-, rfl⟩ | ⟨ms, -, rfl⟩ |
    ⟨-, rfl⟩ | ⟨-, rfl⟩
  · obtain ⟨hreset, off, -, rfl⟩ := hostRead_cases hr
    exact resetHeld_of_released hreset
  · obtain ⟨hreset, off, -, rfl⟩ := hostWrite_cases hw
    obtain ⟨-, hkeep, -⟩ := writeOffset_sameOutside { s with events := rest } off v
    exact resetHeld_of_released (hkeep.trans hreset)
  · exact resetHeld_blockStep hrest hb
  · exact resetHeld_sampleNow hrest
  · exact resetHeld_withOutside h ms rest
  · exact (resetHeld_iff _).2 fun _ => rfl
  · exact resetHeld_of_released rfl

/-- Settles O20: a step keeps the clauses on the block's own registers and that of a held reset. -/
theorem stepsKeepLegalState : Obligations.StepsKeepLegalState := by
  intro s t hlegal hstep
  rw [legalState_iff] at hlegal ⊢
  exact ⟨hlegal.1.step hstep, resetHeld_step hlegal.2 hstep⟩

end Sys2Proof.Proofs
end

section
/-! Arithmetic on finite binary64 values (R15): each operation is one rounding of the exact result, the rounding is
exact where the result has at most 53 significant bits, and otherwise close to it. -/

namespace Sys2Proof.Proofs

open Sys2Proof.Machine Sys2Proof.Claims

/-! ## Finite values and their patterns -/

/-- A finite value that has a binary64 pattern. -/
structure IsBinary64 (x : F64) : Prop where
  finite : isFinite x = true
  pattern : ∃ b : DWord, ofBits b = x

/-- A finite value is read back from its encoding. -/
theorem IsBinary64.ofBits_toBits {x : F64} (h : IsBinary64 x) : ofBits (toBits x) = x := by
  obtain ⟨hfin, b, rfl⟩ := h
  have hnan : ofBits b ≠ .nan := fun hn => by simp [hn, isFinite] at hfin
  rw [binary64RoundTrip b hnan]

theorem isBinary64_ofBits {b : DWord} (h : isFinite (ofBits b) = true) : IsBinary64 (ofBits b) := ⟨h, b, rfl⟩

theorem Represents.isBinary64 {x : F64} {k e : ℤ} (h : Represents x k e) : IsBinary64 x := ⟨h.finite, h.pattern⟩

/-! ## The rounding -/

theorem roundQ_isBinary64 (z : Bool) {q : ℚ} (hq : |q| < 2 ^ 1024 - 2 ^ 970) : IsBinary64 (roundQ z q) := by
  obtain ⟨k, e, -, hrep⟩ := roundQ_roundsTo z hq
  exact hrep.isBinary64

/-- The sign of an exact zero does not show in the value. -/
theorem value_roundQ (z : Bool) (q : ℚ) : value (roundQ z q) = value (rn q) := by
  unfold rn roundQ
  split
  · cases z <;> rfl
  · rfl

/-- A magnitude that rounds to a finite value, above every one that the resolver meets. -/
def finiteBound : ℚ := 3 * 2 ^ 1022

theorem finiteBound_lt_overflow : finiteBound < 2 ^ 1024 - 2 ^ 970 := by
  have hsum (X Y : ℚ) (h : Y < X) : 3 * X < X * 4 - Y := by linarith
  have h1024 : (2 : ℚ) ^ 1024 = 2 ^ 1022 * 4 := by rw [show 1024 = 1022 + 2 from rfl, pow_add]; norm_num
  rw [h1024]
  exact hsum _ _ (pow_lt_pow_right₀ one_lt_two (by norm_num))

theorem two_pow_le_finiteBound : (2 : ℚ) ^ 53 ≤ finiteBound :=
  (pow_le_pow_right₀ one_le_two (by norm_num)).trans
    (le_mul_of_one_le_left (pow_nonneg zero_le_two 1022) (by norm_num))

theorem lt_overflow {q : ℚ} (h : |q| ≤ finiteBound) : |q| < 2 ^ 1024 - 2 ^ 970 :=
  h.trans_lt finiteBound_lt_overflow

/-- A number with at most 53 significant bits, the last one not below the least exponent, is its own rounding. -/
theorem value_roundQ_of_scaled (z : Bool) {q : ℚ} {j : ℤ} {k : ℕ} (hk : k ≤ 1074) (hj : |j| < 2 ^ 53)
    (h : q * 2 ^ k = j) : IsBinary64 (roundQ z q) ∧ value (roundQ z q) = q := by
  have hk0 : (0 : ℝ) < 2 ^ k := by positivity
  have hscaled : (q : ℝ) * 2 ^ k = j := by exact_mod_cast h
  have habs : |(q : ℝ)| * 2 ^ k < 2 ^ 53 := by
    rw [← abs_of_pos hk0, ← abs_mul, hscaled]
    exact_mod_cast hj
  have hq : |q| < 2 ^ 1024 - 2 ^ 970 := by
    refine lt_overflow ?_
    have hone : (1 : ℝ) ≤ 2 ^ k := one_le_pow₀ one_le_two
    have : |(q : ℝ)| < 2 ^ 53 := (le_mul_of_one_le_right (abs_nonneg _) hone).trans_lt habs
    exact (show |q| < 2 ^ 53 by exact_mod_cast this).le.trans two_pow_le_finiteBound
  obtain ⟨i, e, hround, hrep⟩ := roundQ_roundsTo z hq
  refine ⟨hrep.isBinary64, ?_⟩
  have hek : e + k ≤ 0 := by
    rcases eq_or_lt_of_le hround.least with he | he
    · omega
    · have hlt : (2 : ℝ) ^ (e + k) < 2 ^ (1 : ℤ) := by
        rw [zpow_add₀ two_ne_zero, zpow_natCast, zpow_one]
        have := mul_le_mul_of_nonneg_right (hround.scale he) hk0.le
        linarith
      have := (zpow_lt_zpow_iff_right₀ (one_lt_two (α := ℝ))).1 hlt
      omega
  have hgrid : ((j * 2 ^ (-(e + k)).toNat : ℤ) : ℝ) * 2 ^ e = q := by
    have hexp : (2 : ℝ) ^ (-(e + k)).toNat * 2 ^ e * 2 ^ k = 1 := by
      rw [← zpow_natCast, ← zpow_natCast 2 k, ← zpow_add₀ two_ne_zero, ← zpow_add₀ two_ne_zero,
        show (((-(e + k)).toNat : ℕ) : ℤ) + e + k = 0 by omega, zpow_zero]
    refine mul_right_cancel₀ hk0.ne' ?_
    push_cast
    rw [hscaled, mul_assoc, mul_assoc, ← mul_assoc (2 ^ (-(e + k)).toNat), hexp, mul_one]
  have hzero := hround.le_grid (j * 2 ^ (-(e + k)).toNat)
  rw [hgrid, sub_self, abs_zero] at hzero
  have := sub_eq_zero.1 (abs_nonpos_iff.1 hzero)
  exact_mod_cast hrep.value_eq.trans this

/-- An integer of at most 53 bits is a binary64 value. -/
theorem value_f64 {n : ℤ} (hn : |n| < 2 ^ 53) : IsBinary64 (f64 n) ∧ value (f64 n) = n :=
  value_roundQ_of_scaled false (k := 0) (by norm_num) hn (by simp)

/-- `x` is a finite value of magnitude at most `B`. -/
structure BoundedBy (x : F64) (B : ℚ) : Prop where
  isBinary64 : IsBinary64 x
  le : |value x| ≤ B

/-- A rounding moves a number by little. -/
theorem roundQ_boundedBy (z : Bool) {q B : ℚ} (hq : |q| ≤ B) (hB : B ≤ finiteBound) :
    BoundedBy (roundQ z q) (1001 / 1000 * B + 1) ∧ |value (roundQ z q) - q| ≤ B / 1000 + 1 := by
  obtain ⟨k, e, hround, hrep⟩ := roundQ_roundsTo z (lt_overflow (hq.trans hB))
  have hqB : |(q : ℝ)| ≤ B := by exact_mod_cast hq
  have hhalf : (2 : ℝ) ^ e / 2 ≤ B / 1000 + 1 := by
    have hB0 : (0 : ℝ) ≤ B := (abs_nonneg _).trans hqB
    rcases eq_or_lt_of_le hround.least with he | he
    · have : (2 : ℝ) ^ e ≤ 1 := zpow_le_one_of_nonpos₀ one_le_two (by omega)
      linarith
    · have := hround.scale he
      linarith
  have hnear : |((value (roundQ z q) : ℚ) : ℝ) - q| ≤ B / 1000 + 1 := by
    rw [hrep.value_eq]
    exact hround.near.trans hhalf
  have hnear' : |value (roundQ z q) - q| ≤ B / 1000 + 1 := by exact_mod_cast hnear
  refine ⟨⟨hrep.isBinary64, ?_⟩, hnear'⟩
  have := abs_sub_abs_le_abs_sub (value (roundQ z q)) q
  linarith

/-- A rounding that does not overflow has a pattern, whatever its operand is. -/
theorem roundMag_isBinary64_of_finite {neg : Bool} {n d : Nat} (hn : 0 < n) (hd : 0 < d)
    (h : isFinite (roundMag neg n d) = true) : IsBinary64 (roundMag neg n d) := by
  have hleast : -1074 ≤ magExponent n d := (magnitude_roundsTo hn hd).least
  by_cases hm : magSignificand n d = 2 ^ 53
  · by_cases he : magExponent n d + 1 ≤ 971
    · rw [roundMag_eq_carry neg hn hm he]
      exact (represents_carry neg hleast he).isBinary64
    · unfold magSignificand magExponent at hm
      unfold magExponent at he
      simp only [roundMag, if_neg hn.ne', hm, if_true, if_pos (not_le.1 he)] at h
      cases h
  · by_cases he : magExponent n d ≤ 971
    · rw [roundMag_eq_fin neg hn hm he]
      refine (represents_fin neg ?_).isBinary64
      have hle := magSignificand_le hn hd
      by_cases hsub : magExponent n d = -1074
      · omega
      · have := le_magSignificand hn hd (by omega)
        omega
    · unfold magSignificand magExponent at hm
      unfold magExponent at he
      simp only [roundMag, if_neg hn.ne', if_neg hm, if_pos (not_le.1 he)] at h
      cases h

theorem roundQ_isBinary64_of_finite {z : Bool} {q : ℚ} (h : isFinite (roundQ z q) = true) :
    IsBinary64 (roundQ z q) := by
  by_cases hq : q = 0
  · subst hq
    refine roundQ_isBinary64 z (lt_overflow ?_)
    rw [abs_zero]
    exact le_trans (by positivity) two_pow_le_finiteBound
  · rw [roundQ, if_neg hq] at h ⊢
    exact roundMag_isBinary64_of_finite (Int.natAbs_pos.2 (Rat.num_ne_zero.2 hq)) q.den_pos h

/-! ## The operations on finite values -/

theorem value_negF (x : F64) : value (negF x) = -value x := by
  cases x with
  | nan => simp [negF, value]
  | inf neg => simp [negF, value]
  | fin neg m e =>
    have h : ((value (negF (.fin neg m e)) : ℚ) : ℝ) = -(value (.fin neg m e) : ℚ) := by
      rw [negF, value_fin, value_fin]
      cases neg <;> simp
    exact_mod_cast h

theorem value_fin_rat (neg : Bool) (m : Nat) (e : ℤ) :
    value (.fin neg m e) = ((if neg then -1 else 1) * m : ℤ) * (2 : ℚ) ^ e := by
  refine Rat.cast_injective (α := ℝ) ?_
  rw [value_fin, Rat.cast_mul, Rat.cast_intCast, Rat.cast_zpow, Rat.cast_ofNat]

theorem significand_ne_zero {neg : Bool} {m : Nat} {e : ℤ} (h : value (.fin neg m e) ≠ 0) : m ≠ 0 := by
  rintro rfl
  exact h (by rw [value_fin_rat]; simp)

/-- A finite binary64 value is an integer of at most 53 bits times a power of two. -/
theorem IsBinary64.value_eq {x : F64} (h : IsBinary64 x) :
    ∃ j e : ℤ, value x = j * 2 ^ e ∧ |j| < 2 ^ 53 := by
  obtain ⟨hfin, b, rfl⟩ := h
  obtain ⟨neg, m, e, hb, hm, -⟩ := finite_pattern hfin
  refine ⟨_, e, by rw [hb, value_fin_rat], ?_⟩
  have hsign : |(if neg then -1 else 1 : ℤ)| = 1 := by cases neg <;> rfl
  rw [abs_mul, hsign, one_mul, Nat.abs_cast]
  exact_mod_cast hm

theorem isFinite_eq_true_iff (x : F64) : isFinite x = true ↔ ∃ neg m e, x = .fin neg m e := by
  cases x <;> simp [isFinite]

section operations
variable {x y : F64} (hx : isFinite x = true) (hy : isFinite y = true)
include hx hy

theorem addF_eq_roundQ : ∃ z, addF x y = roundQ z (value x + value y) := by
  obtain ⟨neg, m, e, rfl⟩ := (isFinite_eq_true_iff x).1 hx
  obtain ⟨neg', m', e', rfl⟩ := (isFinite_eq_true_iff y).1 hy
  exact ⟨_, rfl⟩

theorem subF_eq_roundQ : ∃ z, subF x y = roundQ z (value x - value y) := by
  have hneg : isFinite (negF y) = true := by
    obtain ⟨neg', m', e', rfl⟩ := (isFinite_eq_true_iff y).1 hy
    rfl
  rw [sub_eq_add_neg, ← value_negF]
  exact addF_eq_roundQ hx hneg

theorem mulF_eq_roundQ : ∃ z, mulF x y = roundQ z (value x * value y) := by
  obtain ⟨neg, m, e, rfl⟩ := (isFinite_eq_true_iff x).1 hx
  obtain ⟨neg', m', e', rfl⟩ := (isFinite_eq_true_iff y).1 hy
  exact ⟨_, rfl⟩

theorem divF_eq_roundQ (h0 : value y ≠ 0) : ∃ z, divF x y = roundQ z (value x / value y) := by
  obtain ⟨neg, m, e, rfl⟩ := (isFinite_eq_true_iff x).1 hx
  obtain ⟨neg', m', e', rfl⟩ := (isFinite_eq_true_iff y).1 hy
  exact ⟨_, if_neg (significand_ne_zero h0)⟩

theorem fmodF_eq_roundQ (h0 : value y ≠ 0) :
    ∃ z, fmodF x y = roundQ z (value x - value y * (truncQ (value x / value y) : ℚ)) := by
  obtain ⟨neg, m, e, rfl⟩ := (isFinite_eq_true_iff x).1 hx
  obtain ⟨neg', m', e', rfl⟩ := (isFinite_eq_true_iff y).1 hy
  exact ⟨_, if_neg (significand_ne_zero h0)⟩

end operations

theorem addF_isBinary64_of_finite {x y : F64} (h : isFinite (addF x y) = true) : IsBinary64 (addF x y) := by
  have hxy : isFinite x = true ∧ isFinite y = true := by
    cases x with
    | nan => cases h
    | inf s =>
      cases y with
      | nan | fin => cases h
      | inf t =>
        rw [addF] at h
        split at h <;> cases h
    | fin =>
      cases y with
      | nan | inf => cases h
      | fin => exact ⟨rfl, rfl⟩
  obtain ⟨z, hz⟩ := addF_eq_roundQ hxy.1 hxy.2
  rw [hz] at h ⊢
  exact roundQ_isBinary64_of_finite h

section bounds
variable {x y : F64} {B C : ℚ} (hx : BoundedBy x B) (hy : BoundedBy y C)
include hx hy

theorem addF_boundedBy (h : B + C ≤ finiteBound) : BoundedBy (addF x y) (1001 / 1000 * (B + C) + 1) := by
  obtain ⟨z, hz⟩ := addF_eq_roundQ hx.isBinary64.finite hy.isBinary64.finite
  rw [hz]
  exact (roundQ_boundedBy z ((abs_add_le _ _).trans (add_le_add hx.le hy.le)) h).1

theorem subF_boundedBy (h : B + C ≤ finiteBound) : BoundedBy (subF x y) (1001 / 1000 * (B + C) + 1) := by
  obtain ⟨z, hz⟩ := subF_eq_roundQ hx.isBinary64.finite hy.isBinary64.finite
  rw [hz]
  exact (roundQ_boundedBy z ((abs_sub _ _).trans (add_le_add hx.le hy.le)) h).1

theorem mulF_boundedBy (h : B * C ≤ finiteBound) : BoundedBy (mulF x y) (1001 / 1000 * (B * C) + 1) := by
  obtain ⟨z, hz⟩ := mulF_eq_roundQ hx.isBinary64.finite hy.isBinary64.finite
  rw [hz]
  refine (roundQ_boundedBy z ?_ h).1
  rw [abs_mul]
  exact mul_le_mul hx.le hy.le (abs_nonneg _) ((abs_nonneg _).trans hx.le)

end bounds

theorem BoundedBy.mono {x : F64} {B C : ℚ} (h : BoundedBy x B) (hBC : B ≤ C) : BoundedBy x C :=
  ⟨h.isBinary64, h.le.trans hBC⟩

end Sys2Proof.Proofs
end

section
/-! The zone count by the table of bounds (R162). -/

namespace Sys2Proof.Proofs

open Sys2Proof.Machine Sys2Proof.Claims

/-- How many entries of an ascending list are at least `a` says which ones are. -/
theorem le_getD_iff_of_sorted (a : Nat) {l : List Nat} (hl : l.Pairwise (· ≤ ·)) {i : Nat} (hi : i < l.length) :
    a ≤ l.getD i 0 ↔ l.length - i ≤ (l.filter fun b => a ≤ b).length := by
  induction l generalizing i with
  | nil => cases hi
  | cons b bs ih =>
    obtain ⟨hb, hbs⟩ := List.pairwise_cons.1 hl
    have hcount : (bs.filter fun c => a ≤ c).length ≤ bs.length := List.length_filter_le _ _
    by_cases hab : a ≤ b
    · have hall : (bs.filter fun c => a ≤ c) = bs :=
        List.filter_eq_self.2 fun c hc => decide_eq_true (hab.trans (hb c hc))
      rw [List.filter_cons_of_pos (by simpa using hab), hall]
      refine iff_of_true ?_ (by simp)
      cases i with
      | zero => exact hab
      | succ i =>
        have hi' : i < bs.length := by simpa using hi
        rw [List.getD_cons_succ, List.getD_eq_getElem _ _ hi']
        exact hab.trans (hb _ (List.getElem_mem hi'))
    · rw [List.filter_cons_of_neg (by simpa using hab)]
      cases i with
      | zero =>
        refine iff_of_false hab ?_
        simp only [List.length_cons]
        omega
      | succ i =>
        rw [List.getD_cons_succ, ih hbs (by simpa using hi)]
        simp only [List.length_cons]
        omega

theorem nlBounds_sorted : nlBounds.Pairwise (· ≤ ·) := by decide

theorem magnitudeBits_eq (lat : DWord) : magnitudeBits lat = lat.toNat % 2 ^ 63 := by
  simp [magnitudeBits]

/-- The model's zone count is the one of the table (R162). -/
theorem isZoneCount_nlZones (lat : DWord) : IsZoneCount lat (nlZones lat) := by
  simp only [IsZoneCount, nlZones, isNaNBits, magnitudeBits_eq, decide_eq_true_eq]
  generalize lat.toNat % 2 ^ 63 = a
  refine ⟨fun h => ?_, fun h => ?_, fun hpos hle => ?_⟩
  · rw [if_neg (by omega), if_pos h]
  · split_ifs <;> omega
  · rw [if_neg (by omega), if_neg (by omega), if_neg (by omega)]
    have hiff (k : Nat) (hk : 2 ≤ k) (hk' : k ≤ 59) :
        k ≤ 1 + (nlBounds.filter fun b => a ≤ b).length ↔ a ≤ zoneTable.getD (59 - k) 0 := by
      have hlen : nlBounds.length = 58 := rfl
      have := le_getD_iff_of_sorted a nlBounds_sorted (i := 59 - k) (by omega)
      rw [show zoneTable = nlBounds from rfl, this, hlen]
      omega
    have hmax : (nlBounds.filter fun b => a ≤ b).length ≤ 58 := List.length_filter_le _ _
    exact ⟨(hiff 2 le_rfl (by omega)).2 hle, by omega, hiff⟩

theorem nlZones_le (lat : DWord) : nlZones lat ≤ 59 := by
  have hmax : (nlBounds.filter fun b => magnitudeBits lat ≤ b).length ≤ 58 := List.length_filter_le _ _
  dsimp only [nlZones]
  split_ifs <;> omega

end Sys2Proof.Proofs
end

section
/-! The selected latitude of a pair (R163, steps 1 to 4, R166, R167): exact but for the product with `DLAT_O`. -/

namespace Sys2Proof.Proofs

open Sys2Proof.Machine Sys2Proof.Claims

theorem fmodz_eq_emod (a : Int) (n : Nat) : fmodz a n = a % n := (Int.emod_def a n).symm

/-- Step 1 is exact: a 17-bit coordinate over 2^17. -/
theorem value_cprNormal (v : BitVec 17) : IsBinary64 (cprNormal v) ∧ value (cprNormal v) = v.toNat / 131072 := by
  have hv := v.isLt
  obtain ⟨hnum, hvnum⟩ := value_f64 (n := v.toNat) (by rw [Nat.abs_cast]; omega)
  obtain ⟨hden, hvden⟩ := value_f64 (n := 131072) (by norm_num)
  obtain ⟨z, hz⟩ := divF_eq_roundQ hnum.finite hden.finite (by rw [hvden]; norm_num)
  rw [hvnum, hvden] at hz
  push_cast at hz
  rw [cprNormal, hz]
  exact value_roundQ_of_scaled z (j := v.toNat) (k := 17) (by norm_num) (by rw [Nat.abs_cast]; omega)
    (by push_cast; ring)

/-- `j` of a pair as an integer quotient (R166). -/
theorem pairJ_eq (E O : Slot) : pairJ E O = (59 * E.lat.toNat - 60 * O.lat.toNat + 65536 : Int) / 131072 := by
  rw [pairJ, cprJIndex, (value_cprNormal E.lat).2, (value_cprNormal O.lat).2]
  have hquot : (59 * (E.lat.toNat / 131072) - 60 * (O.lat.toNat / 131072) + 1 / 2 : ℚ) =
      ((59 * E.lat.toNat - 60 * O.lat.toNat + 65536 : Int) : ℚ) / (131072 : Nat) := by
    push_cast
    ring
  rw [hquot]
  exact Rat.floor_intCast_div_natCast _ _

theorem pairJ_bounds (E O : Slot) : -60 ≤ pairJ E O ∧ pairJ E O ≤ 59 := by
  have hE := E.lat.isLt
  have hO := O.lat.isLt
  rw [pairJ_eq]
  omega

/-- The sum of a zone index below 60 and a normalised coordinate is exact. -/
theorem value_zoneSum {a : Int} (ha : 0 ≤ a) (hn : a < 60) (v : BitVec 17) :
    IsBinary64 (addF (f64 a) (cprNormal v)) ∧ value (addF (f64 a) (cprNormal v)) = a + (v.toNat : ℚ) / 131072 := by
  have hv := v.isLt
  obtain ⟨hfa, hva⟩ := value_f64 (n := a) (by rw [abs_of_nonneg ha]; omega)
  obtain ⟨hfv, hvv⟩ := value_cprNormal v
  obtain ⟨z, hz⟩ := addF_eq_roundQ hfa.finite hfv.finite
  rw [hva, hvv] at hz
  rw [hz]
  refine value_roundQ_of_scaled z (j := a * 131072 + v.toNat) (k := 17) (by norm_num) ?_ (by push_cast; ring)
  rw [abs_of_nonneg (by omega)]
  omega

/-- `x`, less 360 from 270 on (R166). -/
def reducedBy360 (x : ℚ) : ℚ := if 270 ≤ x then x - 360 else x

/-- The reduction of step 3 is exact: a value from 270 on has no bit below 2^-44 (R166). -/
theorem value_reduce270 {x : F64} {q : ℚ} (hx : IsBinary64 x) (hq : value x = q) (hlt : q < 720) :
    IsBinary64 (reduce270 x) ∧ value (reduce270 x) = reducedBy360 q := by
  subst hq
  unfold reduce270 reducedBy360
  split
  next hge =>
    obtain ⟨j, e, hval, hj⟩ := hx.value_eq
    have he : -44 ≤ e := by
      by_contra hlow
      have hpow : (2 : ℚ) ^ e ≤ 2 ^ (-45 : ℤ) := zpow_le_zpow_right₀ one_le_two (by omega)
      have hj' : (j : ℚ) ≤ 2 ^ 53 := by exact_mod_cast ((le_abs_self j).trans_lt hj).le
      have hsmall : (j : ℚ) * 2 ^ e ≤ 2 ^ 53 * 2 ^ (-45 : ℤ) :=
        mul_le_mul hj' hpow (by positivity) (by positivity)
      norm_num at hsmall
      linarith
    obtain ⟨h360, hv360⟩ := value_f64 (n := 360) (by norm_num)
    obtain ⟨z, hz⟩ := subF_eq_roundQ hx.finite h360.finite
    rw [hv360, Int.cast_ofNat] at hz
    rw [hz]
    have hscaled : (value x - 360) * 2 ^ 44 = ((j * 2 ^ (e + 44).toNat - 360 * 2 ^ 44 : ℤ) : ℚ) := by
      have hexp : (2 : ℚ) ^ e * 2 ^ 44 = 2 ^ (e + 44).toNat := by
        rw [← zpow_natCast, ← zpow_natCast, ← zpow_add₀ two_ne_zero]
        congr 1
        push_cast
        omega
      rw [hval, sub_mul, mul_assoc, hexp]
      norm_num
    refine value_roundQ_of_scaled z (k := 44) (by norm_num) ?_ hscaled
    have hlt53 : |(value x - 360) * 2 ^ 44| < 2 ^ 53 := by
      rw [abs_mul, abs_of_pos (by positivity : (0 : ℚ) < 2 ^ 44)]
      have : |value x - 360| < 512 := abs_lt.2 ⟨by linarith, by linarith⟩
      linarith
    rw [hscaled] at hlt53
    exact_mod_cast hlt53
  next => exact ⟨hx, rfl⟩

/-- The even candidate before its reduction: 6 degrees a zone (R166). -/
def evenLatitude (j : Int) (v : BitVec 17) : ℚ := 6 * ((j % 60 : Int) + (v.toNat : ℚ) / 131072)

/-- The odd candidate before its reduction: `DLAT_O` a zone, rounded once (R166). -/
def oddLatitude (j : Int) (v : BitVec 17) : ℚ :=
  value (rn (value (rn (360 / 59)) * ((j % 59 : Int) + (v.toNat : ℚ) / 131072)))

theorem value_latEven (j : Int) (v : BitVec 17) :
    IsBinary64 (latEven j (cprNormal v)) ∧ value (latEven j (cprNormal v)) = reducedBy360 (evenLatitude j v) := by
  have hv := v.isLt
  have hlo : 0 ≤ j % 60 := Int.emod_nonneg j (by norm_num)
  have hhi : j % 60 < 60 := Int.emod_lt_of_pos j (by norm_num)
  obtain ⟨hfsum, hvsum⟩ := value_zoneSum hlo hhi v
  obtain ⟨hf6, hv6⟩ := value_f64 (n := 6) (by norm_num)
  obtain ⟨z, hz⟩ := mulF_eq_roundQ hf6.finite hfsum.finite
  rw [hv6, hvsum, Int.cast_ofNat] at hz
  obtain ⟨hfx, hvx⟩ := value_roundQ_of_scaled z (q := evenLatitude j v) (j := 6 * (j % 60 * 131072 + v.toNat))
    (k := 17) (by norm_num) (by rw [abs_of_nonneg (by omega)]; omega)
    (by unfold evenLatitude; push_cast; ring)
  have hlt : evenLatitude j v < 720 := by
    have h1 : ((j % 60 : Int) : ℚ) ≤ 59 := by exact_mod_cast Int.le_of_lt_add_one hhi
    have h2 : (v.toNat : ℚ) < 131072 := by exact_mod_cast hv
    unfold evenLatitude
    linarith
  rw [latEven, fmodz_eq_emod, Nat.cast_ofNat, hz]
  exact value_reduce270 hfx hvx hlt

theorem value_latOdd (j : Int) (v : BitVec 17) :
    IsBinary64 (latOdd j (cprNormal v)) ∧ value (latOdd j (cprNormal v)) = reducedBy360 (oddLatitude j v) := by
  have hlo : 0 ≤ j % 59 := Int.emod_nonneg j (by norm_num)
  have hhi : j % 59 < 59 := Int.emod_lt_of_pos j (by norm_num)
  obtain ⟨hfsum, hvsum⟩ := value_zoneSum hlo (hhi.trans (by norm_num)) v
  have hsum : BoundedBy (addF (f64 (j % 59)) (cprNormal v)) 59 := by
    have hv : (v.toNat : ℚ) < 131072 := by exact_mod_cast v.isLt
    have h0 : (0 : ℚ) ≤ (j % 59 : Int) := by exact_mod_cast hlo
    have h1 : ((j % 59 : Int) : ℚ) ≤ 58 := by exact_mod_cast Int.le_of_lt_add_one hhi
    refine ⟨hfsum, ?_⟩
    rw [hvsum, abs_of_nonneg (by positivity)]
    linarith
  have hd : BoundedBy dlatOdd 8 :=
    ((roundQ_boundedBy false (q := 360 / 59) (B := 360 / 59) (by norm_num)
      ((by norm_num : (360 / 59 : ℚ) ≤ 2 ^ 53).trans two_pow_le_finiteBound)).1).mono (by norm_num)
  have hprod : BoundedBy (mulF dlatOdd (addF (f64 (j % 59)) (cprNormal v))) 700 :=
    (mulF_boundedBy hd hsum ((by norm_num : (8 * 59 : ℚ) ≤ 2 ^ 53).trans two_pow_le_finiteBound)).mono
      (by norm_num)
  have hval : value (mulF dlatOdd (addF (f64 (j % 59)) (cprNormal v))) = oddLatitude j v := by
    obtain ⟨z, hz⟩ := mulF_eq_roundQ hd.isBinary64.finite hfsum.finite
    rw [hz, value_roundQ, hvsum]
    rfl
  rw [latOdd, fmodz_eq_emod, Nat.cast_ofNat]
  exact value_reduce270 hprod.isBinary64 hval
    (hval ▸ ((le_abs_self _).trans hprod.le).trans_lt (by norm_num))

/-- The selected latitude of a pair by the choice of step 4 (R166, R167). -/
theorem value_pairLat (E O : Slot) :
    IsBinary64 (pairLat E O) ∧ value (pairLat E O) =
      reducedBy360 (if O.ts.toNat < E.ts.toNat then evenLatitude (pairJ E O) E.lat
        else oddLatitude (pairJ E O) O.lat) := by
  unfold pairLat pairEven
  by_cases h : O.ts.toNat < E.ts.toNat
  · simpa only [h, decide_true, if_true] using value_latEven (pairJ E O) E.lat
  · simpa only [h, decide_false, if_false, Bool.false_eq_true] using value_latOdd (pairJ E O) O.lat

end Sys2Proof.Proofs
end

section
/-! The outcomes of CPR_RESOLVE (R163 to R171), and the selected latitude of every pair inside the window. -/

namespace Sys2Proof.Proofs

open Sys2Proof.Machine Sys2Proof.Claims

/-! ## The roles -/

/-- The two slots hold the even message `E` and the odd one `O`, in either order (R164). -/
structure Roles (s0 s1 E O : Slot) : Prop where
  even : E.f = 0
  odd : O.f = 1
  slots : (s0 = E ∧ s1 = O) ∨ (s0 = O ∧ s1 = E)

theorem Roles.cprResolve {s0 s1 E O : Slot} (h : Roles s0 s1 E O) (refLon : DWord) :
    cprResolve s0 s1 refLon = resolvePair E O refLon := by
  have hne : E.f ≠ O.f := by rw [h.even, h.odd]; decide
  obtain ⟨rfl, rfl⟩ | ⟨rfl, rfl⟩ := h.slots
  · rw [Machine.cprResolve, if_neg hne, if_pos h.even]
  · rw [Machine.cprResolve, if_neg hne.symm, if_neg (by rw [h.odd]; decide)]

theorem exists_roles {s0 s1 : Slot} (h : s0.f ≠ s1.f) : ∃ E O, Roles s0 s1 E O := by
  rcases (by decide : ∀ a b : BitVec 1, a ≠ b → (a = 0 ∧ b = 1) ∨ (a = 1 ∧ b = 0)) s0.f s1.f h with
    ⟨h0, h1⟩ | ⟨h0, h1⟩
  · exact ⟨s0, s1, h0, h1, .inl ⟨rfl, rfl⟩⟩
  · exact ⟨s1, s0, h1, h0, .inr ⟨rfl, rfl⟩⟩

theorem tsDistance_eq (a b : DWord) : (tsDistance a b : Int) = |(a.toNat : Int) - b.toNat| := by
  rw [tsDistance]
  rcases le_total a.toNat b.toNat with h | h
  · rw [abs_of_nonpos (by omega)]
    omega
  · rw [abs_of_nonneg (by omega)]
    omega

theorem Roles.within {s0 s1 E O : Slot} (h : Roles s0 s1 E O)
    (hts : |(s0.ts.toNat : Int) - s1.ts.toNat| ≤ 10000) : tsDistance E.ts O.ts ≤ Config.pairWindow := by
  have hdist : (tsDistance E.ts O.ts : Int) ≤ 10000 := by
    rw [tsDistance_eq]
    obtain ⟨rfl, rfl⟩ | ⟨rfl, rfl⟩ := h.slots
    · exact hts
    · rwa [abs_sub_comm]
  exact_mod_cast hdist

/-! ## The outcomes -/

/-- The record of a valid result (R163, R171). -/
def validResult (E O : Slot) (r : F64) : CprResult :=
  { valid := true, reason := .ok, used := usedBit (pairEven E O), nl := BitVec.ofInt 32 (pairZones E O),
    j := BitVec.ofInt 32 (pairJ E O),
    m := BitVec.ofInt 32 (cprMIndex (pairZones E O) (cprNormal E.lon) (cprNormal O.lon)),
    lat := toBits (pairLat E O), lon := toBits (wrap180 (fmodF
      (movedLongitude (pairEven E O) (pairZones E O) (cprNormal E.lon) (cprNormal O.lon) r) (f64 360))) }

/-- The four outcomes inside the window: no zones, a reference that is not finite, a moved longitude that is finite
or not (R168, R170). -/
inductive PairOutcome (E O : Slot) (refLon : DWord) : CprResult → Prop where
  | noZones (hz : pairZones E O = 0) :
    PairOutcome E O refLon (cprInvalid .nl (usedBit (pairEven E O)) (pairZones E O) (pairJ E O) 0)
  | badReference (hz : pairZones E O ≠ 0) (hr : isFinite (ofBits refLon) = false) :
    PairOutcome E O refLon (cprInvalid .ref (usedBit (pairEven E O)) (pairZones E O) (pairJ E O) 0)
  | valid (hz : pairZones E O ≠ 0) (hr : isFinite (ofBits refLon) = true)
    (hlon : isFinite (movedLongitude (pairEven E O) (pairZones E O) (cprNormal E.lon) (cprNormal O.lon)
      (ofBits refLon)) = true) :
    PairOutcome E O refLon (validResult E O (ofBits refLon))
  | overflow (hz : pairZones E O ≠ 0) (hr : isFinite (ofBits refLon) = true)
    (hlon : isFinite (movedLongitude (pairEven E O) (pairZones E O) (cprNormal E.lon) (cprNormal O.lon)
      (ofBits refLon)) = false) :
    PairOutcome E O refLon (cprInvalid .ref (usedBit (pairEven E O)) (pairZones E O) (pairJ E O)
      (cprMIndex (pairZones E O) (cprNormal E.lon) (cprNormal O.lon)))

theorem resolvePair_outcome {E O : Slot} (hwin : tsDistance E.ts O.ts ≤ Config.pairWindow) (refLon : DWord) :
    PairOutcome E O refLon (resolvePair E O refLon) := by
  rw [resolvePair_eq, if_neg (by omega)]
  split
  next hz =>
    have := PairOutcome.noZones (refLon := refLon) hz
    rwa [hz] at this
  next hz =>
    split
    next hr =>
      rw [resolveLongitude_eq]
      split
      next hlon => exact .valid hz hr hlon
      next hlon => exact .overflow hz hr (by simpa using hlon)
    next hr => exact .badReference hz (by simpa using hr)

/-- Every outcome inside the window gives J, USED and the zone count (R44, R45). -/
theorem PairOutcome.fields {E O : Slot} {refLon : DWord} {c : CprResult} (h : PairOutcome E O refLon c) :
    c.used = usedBit (pairEven E O) ∧ c.nl = BitVec.ofInt 32 (pairZones E O) ∧
      c.j = BitVec.ofInt 32 (pairJ E O) ∧ (c.valid = true → c.lat = toBits (pairLat E O)) := by
  cases h with
  | valid => exact ⟨rfl, rfl, rfl, fun _ => rfl⟩
  | _ => exact ⟨rfl, rfl, rfl, fun h => Bool.noConfusion h⟩

/-- A zone count in its register. -/
theorem toNat_ofInt_pairZones (E O : Slot) : (BitVec.ofInt 32 (pairZones E O)).toNat = pairZones E O := by
  have : pairZones E O ≤ 59 := nlZones_le _
  rw [BitVec.ofInt_natCast, BitVec.toNat_ofNat]
  omega

theorem toInt_ofInt_pairJ (E O : Slot) : (BitVec.ofInt 32 (pairJ E O)).toInt = pairJ E O := by
  have := pairJ_bounds E O
  rw [BitVec.toInt_ofInt]
  exact Int.bmod_eq_of_le (by omega) (by omega)

/-- The command on a pending snapshot (R163). -/
theorem exec_cprResolve {s : State} {p : Pending} (hs : s.cst = .busy p) :
    ∃ t, exec .cprResolve s = .next t ∧ t.cpr = cprResolve p.snap.slot0 p.snap.slot1 p.snap.refLon :=
  ⟨_, exec_next hs rfl, rfl⟩

/-- CPR_STATUS by its fields (R44). -/
theorem readReg_cprStatus_toNat (t : State) :
    (readReg t .cprStatus).toNat =
      256 * t.cpr.used.toNat + 16 * cprReasonNumber t.cpr.reason + (if t.cpr.valid = true then 1 else 0) := by
  rw [readReg, cprStatusWord_toNat]
  cases t.cpr.valid <;> rfl

/-- Settles O58: the latitude is that of `value_pairLat`, whatever becomes of the longitude. -/
theorem cprLatitudeSelected : Obligations.CprLatitudeSelected := by
  intro s p E O hs hslots heven hodd hts
  have hroles : Roles p.snap.slot0 p.snap.slot1 E O := ⟨heven, hodd, hslots⟩
  obtain ⟨t, hexec, hcpr⟩ := exec_cprResolve hs
  have hwin : tsDistance E.ts O.ts ≤ Config.pairWindow := (Roles.mk heven hodd (.inl ⟨rfl, rfl⟩)).within hts
  rw [hroles.cprResolve] at hcpr
  obtain ⟨hused, hnl, hj, hlat⟩ := (resolvePair_outcome hwin p.snap.refLon).fields
  rw [← hcpr] at hused hnl hj hlat
  obtain ⟨hfin, hval⟩ := value_pairLat E O
  have hzones : (readReg t .cprNl).toNat = nlZones (toBits (pairLat E O)) := by
    rw [readReg, hnl, toNat_ofInt_pairZones]
    rfl
  dsimp only
  rw [← pairJ_eq]
  refine ⟨t, hexec, (pairJ_bounds E O).1, (pairJ_bounds E O).2, ?_, ?_, toBits (pairLat E O), ?_, ?_, ?_, hzones, ?_⟩
  · rw [readReg, hj, toInt_ofInt_pairJ]
  · rw [readReg_cprStatus_toNat, hused, usedBit, pairEven]
    congr 3
    simp only [decide_eq_true_eq]
    split <;> rfl
  · rw [hfin.ofBits_toBits]
    exact hfin.finite
  · rw [hfin.ofBits_toBits, hval]
    rfl
  · rw [hzones]
    exact isZoneCount_nlZones _
  · intro hvalid
    rw [readReg, readReg, hiHalf_append_loHalf]
    exact hlat hvalid

end Sys2Proof.Proofs
end

section
/-! The longitude of a pair (R163, steps 6 to 8, R169, R170): with a reference of magnitude at most 2^1023 no
intermediate value overflows, and the wrapped longitude is finite. -/

namespace Sys2Proof.Proofs

open Sys2Proof.Machine Sys2Proof.Claims

/-- The number of longitude zones of step 7 (R169). -/
def longitudeZones (useEven : Bool) (nl : Nat) : Nat := max (nl - (if useEven then 0 else 1)) 1

theorem longitudeZones_bounds (useEven : Bool) {nl : Nat} (hnl : nl ≤ 59) :
    1 ≤ longitudeZones useEven nl ∧ longitudeZones useEven nl ≤ 59 := by
  unfold longitudeZones
  omega

/-- The zone width lies between 5 and 362 degrees. -/
theorem zoneWidth_bounds (useEven : Bool) {nl : Nat} (hnl : nl ≤ 59) :
    BoundedBy (zoneWidth useEven nl) 362 ∧ 5 ≤ value (zoneWidth useEven nl) := by
  obtain ⟨hlo, hhi⟩ := longitudeZones_bounds useEven hnl
  obtain ⟨hf, hv⟩ := value_f64 (n := (longitudeZones useEven nl : Nat)) (by rw [Nat.abs_cast]; omega)
  obtain ⟨h360, hv360⟩ := value_f64 (n := 360) (by norm_num)
  have hlo' : (1 : ℚ) ≤ longitudeZones useEven nl := by exact_mod_cast hlo
  have hhi' : (longitudeZones useEven nl : ℚ) ≤ 59 := by exact_mod_cast hhi
  obtain ⟨z, hz⟩ := divF_eq_roundQ h360.finite hf.finite (by rw [hv]; push_cast; linarith)
  rw [hv, hv360, Int.cast_ofNat, Int.cast_natCast] at hz
  have hq : (360 / 59 : ℚ) ≤ 360 / longitudeZones useEven nl := by gcongr
  have hq' : (360 : ℚ) / longitudeZones useEven nl ≤ 360 := div_le_self (by norm_num) hlo'
  have habs : |(360 : ℚ) / longitudeZones useEven nl| ≤ 360 / longitudeZones useEven nl :=
    (abs_of_nonneg (by positivity)).le
  obtain ⟨hb, hnear⟩ := roundQ_boundedBy z habs
    (hq'.trans ((by norm_num : (360 : ℚ) ≤ 2 ^ 53).trans two_pow_le_finiteBound))
  have heq : zoneWidth useEven nl = roundQ z (360 / longitudeZones useEven nl) := hz
  rw [heq]
  refine ⟨hb.mono (by linarith), ?_⟩
  have := (abs_le.1 hnear).1
  linarith

/-- The first longitude is small. -/
theorem firstLongitude_boundedBy (useEven : Bool) {nl : Nat} (hnl : nl ≤ 59) (u v : BitVec 17) :
    BoundedBy (firstLongitude useEven nl (cprNormal u) (cprNormal v)) 23000 := by
  obtain ⟨hlo, hhi⟩ := longitudeZones_bounds useEven hnl
  have hbase : (if useEven then cprNormal u else cprNormal v) = cprNormal (if useEven then u else v) := by
    cases useEven <;> rfl
  have hdef : firstLongitude useEven nl (cprNormal u) (cprNormal v) = mulF (zoneWidth useEven nl)
      (addF (f64 (cprMIndex nl (cprNormal u) (cprNormal v) % longitudeZones useEven nl))
        (cprNormal (if useEven then u else v))) := by
    rw [← hbase, ← fmodz_eq_emod]
    rfl
  rw [hdef]
  generalize cprMIndex nl (cprNormal u) (cprNormal v) = m
  generalize (if useEven then u else v) = w
  have hm : 0 ≤ m % longitudeZones useEven nl := Int.emod_nonneg _ (by omega)
  have hm' : m % longitudeZones useEven nl < 59 :=
    (Int.emod_lt_of_pos _ (by omega)).trans_le (by exact_mod_cast hhi)
  obtain ⟨hf, hv⟩ := value_zoneSum hm (hm'.trans (by norm_num)) w
  have hsum : BoundedBy (addF (f64 (m % longitudeZones useEven nl)) (cprNormal w)) 60 := by
    have h0 : (0 : ℚ) ≤ (m % longitudeZones useEven nl : Int) := by exact_mod_cast hm
    have h1 : ((m % longitudeZones useEven nl : Int) : ℚ) ≤ 59 := by exact_mod_cast hm'.le
    have hw : (w.toNat : ℚ) < 131072 := by exact_mod_cast w.isLt
    refine ⟨hf, ?_⟩
    rw [hv, abs_of_nonneg (by positivity)]
    linarith
  exact (mulF_boundedBy (zoneWidth_bounds useEven hnl).1 hsum
    ((by norm_num : (362 * 60 : ℚ) ≤ 2 ^ 53).trans two_pow_le_finiteBound)).mono (by norm_num)

theorem abs_floor_le (q : ℚ) : |(q.floor : ℚ)| ≤ |q| + 1 := by
  have hle : (q.floor : ℚ) ≤ q := Int.floor_le q
  have hlt : q < q.floor + 1 := Int.lt_floor_add_one q
  have := neg_abs_le q
  have := le_abs_self q
  exact abs_le.2 ⟨by linarith, by linarith⟩

/-- The zone number of step 8, from a bound on the distance to the reference in zones. -/
theorem nearestZone_boundedBy {r lon0 dlon : F64} {Q : ℚ} (hQ : 2 * Q + 20 ≤ finiteBound)
    (h : BoundedBy (divF (subF r lon0) dlon) Q) :
    BoundedBy (f64 (nearestZone r lon0 dlon)) (1003 / 1000 * Q + 6) := by
  have hQ0 : 0 ≤ Q := (abs_nonneg _).trans h.le
  have hhalf : BoundedBy (rn (1 / 2)) 1 := by
    obtain ⟨hf, hv⟩ := value_roundQ_of_scaled false (q := 1 / 2) (j := 1) (k := 1) (by norm_num) (by norm_num)
      (by norm_num)
    exact ⟨hf, by rw [rn, hv]; norm_num [abs_of_pos]⟩
  have hsum := addF_boundedBy h hhalf (by linarith)
  have hfloor : |((nearestZone r lon0 dlon : Int) : ℚ)| ≤ 1001 / 1000 * (Q + 1) + 1 + 1 :=
    (abs_floor_le _).trans (by have := hsum.le; linarith)
  exact (roundQ_boundedBy false hfloor (by linarith)).1.mono (by linarith)

/-- Step 8 with a reference in range: dividing by the zone width and multiplying by it again cancel but for the
roundings. -/
theorem longitudeShift_boundedBy {r lon0 dlon : F64} {B : ℚ} (hB : 2 ^ 53 ≤ B) (hB' : 3 * B = 2 * finiteBound)
    (hr : BoundedBy r B) (h0 : BoundedBy lon0 23000) (hd : BoundedBy dlon 362) (hd5 : 5 ≤ value dlon) :
    BoundedBy (longitudeShift r lon0 dlon) (11 / 10 * B) := by
  have hdpos : 0 < value dlon := by linarith
  have hd362 : value dlon ≤ 362 := (le_abs_self _).trans hd.le
  have hdist : BoundedBy (subF r lon0) (1002 / 1000 * B) :=
    (subF_boundedBy hr h0 (by linarith)).mono (by linarith)
  obtain ⟨Q, hQ⟩ : ∃ Q, Q * value dlon = 1002 / 1000 * B := ⟨_, div_mul_cancel₀ _ hdpos.ne'⟩
  have hQB : 5 * Q ≤ 1002 / 1000 * B := by
    have hQ0 : 0 ≤ Q := nonneg_of_mul_nonneg_left (hQ ▸ by positivity) hdpos
    rw [← hQ, mul_comm]
    exact mul_le_mul_of_nonneg_left hd5 hQ0
  have hquot : |value (subF r lon0) / value dlon| ≤ Q := by
    rw [abs_div, abs_of_pos hdpos, div_le_iff₀ hdpos, hQ]
    exact hdist.le
  obtain ⟨z, hz⟩ := divF_eq_roundQ hdist.isBinary64.finite hd.isBinary64.finite hdpos.ne'
  have hzones : BoundedBy (divF (subF r lon0) dlon) (1001 / 1000 * Q + 1) :=
    hz ▸ (roundQ_boundedBy z hquot (by linarith)).1
  have hindex := nearestZone_boundedBy (by linarith) hzones
  obtain ⟨z', hz'⟩ := mulF_eq_roundQ hindex.isBinary64.finite hd.isBinary64.finite
  have hprod : |value (f64 (nearestZone r lon0 dlon)) * value dlon| ≤ 1005 / 1000 * (1002 / 1000 * B) + 3000 := by
    rw [abs_mul, abs_of_pos hdpos, ← hQ]
    have := mul_le_mul_of_nonneg_right hindex.le hdpos.le
    have hQd : 0 ≤ Q * value dlon := hQ ▸ by positivity
    linarith
  rw [longitudeShift, hz']
  exact (roundQ_boundedBy z' hprod (by linarith)).1.mono (by linarith)

/-- 2^1023 is two thirds of the bound below which every rounding stays finite. -/
theorem three_mul_two_pow_1023 : 3 * (2 : ℚ) ^ 1023 = 2 * finiteBound := by
  have h (X : ℚ) : 3 * (X * 2) = 2 * (3 * X) := by ring
  have h1023 : (2 : ℚ) ^ 1023 = 2 ^ 1022 * 2 := pow_succ _ 1022
  rw [h1023, finiteBound]
  exact h _

theorem movedLongitude_isBinary64 (useEven : Bool) {nl : Nat} (hnl : nl ≤ 59) (u v : BitVec 17) {r : F64}
    (hr : IsBinary64 r) (hle : |value r| ≤ 2 ^ 1023) :
    IsBinary64 (movedLongitude useEven nl (cprNormal u) (cprNormal v) r) := by
  obtain ⟨B, hBdef⟩ : ∃ B : ℚ, B = 2 ^ 1023 := ⟨_, rfl⟩
  have hB : 2 ^ 53 ≤ B := by
    rw [hBdef]
    exact pow_le_pow_right₀ one_le_two (by norm_num)
  have hB' : 3 * B = 2 * finiteBound := by rw [hBdef, three_mul_two_pow_1023]
  have h0 := firstLongitude_boundedBy useEven hnl u v
  obtain ⟨hd, hd5⟩ := zoneWidth_bounds useEven hnl
  have hshift := longitudeShift_boundedBy hB hB' ⟨hr, hle.trans_eq hBdef.symm⟩ h0 hd hd5
  exact (addF_boundedBy h0 hshift (by linarith only [hB, hB'])).isBinary64

/-! ## The wrap -/

theorem abs_sub_truncQ_le (q : ℚ) : |q - truncQ q| ≤ 1 := by
  unfold truncQ
  split
  next h =>
    have hle : (q.floor : ℚ) ≤ q := Int.floor_le q
    have hlt : q < q.floor + 1 := Int.lt_floor_add_one q
    exact abs_le.2 ⟨by linarith, by linarith⟩
  next h =>
    have hle : ((-q).floor : ℚ) ≤ -q := Int.floor_le (-q)
    have hlt : -q < (-q).floor + 1 := Int.lt_floor_add_one (-q)
    push_cast
    exact abs_le.2 ⟨by linarith, by linarith⟩

theorem wrap180_fmodF_isBinary64 {x : F64} (hx : IsBinary64 x) : IsBinary64 (wrap180 (fmodF x (f64 360))) := by
  obtain ⟨h360, hv360⟩ := value_f64 (n := 360) (by norm_num)
  have hsmall {B : ℚ} (h : B ≤ 2 ^ 53) : B ≤ finiteBound := h.trans two_pow_le_finiteBound
  have hb360 : BoundedBy (f64 360) 360 := ⟨h360, by rw [hv360]; norm_num⟩
  obtain ⟨z, hz⟩ := fmodF_eq_roundQ hx.finite h360.finite (by rw [hv360]; norm_num)
  have hrem : |value x - value (f64 360) * (truncQ (value x / value (f64 360)) : ℚ)| ≤ 360 := by
    have h := abs_sub_truncQ_le (value x / value (f64 360))
    rw [hv360] at h ⊢
    rw [show value x - ((360 : Int) : ℚ) * truncQ (value x / (360 : Int)) =
      360 * (value x / (360 : Int) - truncQ (value x / (360 : Int))) by push_cast; ring, abs_mul, abs_of_pos (by norm_num)]
    linarith
  have hw := (roundQ_boundedBy z hrem (hsmall (by norm_num))).1
  rw [hz]
  unfold wrap180
  split
  · exact (subF_boundedBy hw hb360 (hsmall (by norm_num))).isBinary64
  · split
    · exact (addF_boundedBy hw hb360 (hsmall (by norm_num))).isBinary64
    · exact hw.isBinary64

end Sys2Proof.Proofs
end

section
/-! Validity of a CPR result (R44, R163, R168, R170, R171). -/

namespace Sys2Proof.Proofs

open Sys2Proof.Machine Sys2Proof.Claims

/-- What VALID says of a CPR result, and what an invalid one holds (R171). -/
structure SoundResult (refLon : DWord) (c : CprResult) : Prop where
  valid_iff : c.valid = true ↔ c.reason = .ok
  position : c.valid = true → 0 < c.nl.toNat ∧ IsZoneCount c.lat c.nl.toNat ∧ c.nl.toNat = nlZones c.lat ∧
    isFinite (ofBits refLon) = true ∧ isFinite (ofBits c.lat) = true ∧ isFinite (ofBits c.lon) = true
  noPosition : c.valid = false → c.lat = 0 ∧ c.lon = 0

theorem soundResult_cprInvalid {reason : CprReason} (h : reason ≠ .ok) (refLon : DWord) (used : BitVec 1)
    (nl j m : Int) : SoundResult refLon (cprInvalid reason used nl j m) :=
  ⟨⟨fun hv => Bool.noConfusion hv, fun hr => absurd hr h⟩, fun hv => Bool.noConfusion hv, fun _ => ⟨rfl, rfl⟩⟩

theorem PairOutcome.sound {E O : Slot} {refLon : DWord} {c : CprResult} (h : PairOutcome E O refLon c) :
    SoundResult refLon c := by
  cases h with
  | noZones => exact soundResult_cprInvalid (by decide) _ _ _ _ _
  | badReference => exact soundResult_cprInvalid (by decide) _ _ _ _ _
  | overflow => exact soundResult_cprInvalid (by decide) _ _ _ _ _
  | valid hz hr hlon =>
    have hlat := (value_pairLat E O).1
    have hnl : (validResult E O (ofBits refLon)).nl.toNat = pairZones E O := toNat_ofInt_pairZones E O
    refine ⟨iff_of_true rfl rfl, fun _ => ?_, fun hv => Bool.noConfusion hv⟩
    rw [hnl]
    refine ⟨Nat.pos_of_ne_zero hz, isZoneCount_nlZones _, rfl, hr, ?_, ?_⟩
    · exact (congrArg isFinite hlat.ofBits_toBits).trans hlat.finite
    · have hwrap := wrap180_fmodF_isBinary64 (addF_isBinary64_of_finite hlon)
      exact (congrArg isFinite hwrap.ofBits_toBits).trans hwrap.finite

theorem cprResolve_sound (s0 s1 : Slot) (refLon : DWord) : SoundResult refLon (cprResolve s0 s1 refLon) := by
  by_cases hf : s0.f = s1.f
  · rw [cprResolve, if_pos hf]
    exact soundResult_cprInvalid (by decide) _ _ _ _ _
  · obtain ⟨E, O, hroles⟩ := exists_roles hf
    rw [hroles.cprResolve]
    by_cases hwin : tsDistance E.ts O.ts ≤ Config.pairWindow
    · exact (resolvePair_outcome hwin refLon).sound
    · rw [resolvePair_eq, if_pos (by omega)]
      exact soundResult_cprInvalid (by decide) _ _ _ _ _

theorem ofInt_pairZones_eq_zero_iff (E O : Slot) : BitVec.ofInt 32 (pairZones E O) = 0 ↔ pairZones E O = 0 := by
  rw [← BitVec.toNat_inj, toNat_ofInt_pairZones]
  rfl

/-- Which reason goes with which zone count and reference (R168, R170). -/
theorem PairOutcome.reasons {E O : Slot} {refLon : DWord} {c : CprResult} (h : PairOutcome E O refLon c) :
    (c.reason = .ok ∨ c.reason = .nl ∨ c.reason = .ref) ∧ (c.reason = .nl ↔ c.nl = 0) ∧ (c.nl = 0 → c.m = 0) ∧
    (c.nl ≠ 0 → isFinite (ofBits refLon) = false → c.reason = .ref ∧ c.m = 0) ∧
    (c.nl ≠ 0 → isFinite (ofBits refLon) = true → |value (ofBits refLon)| ≤ 2 ^ 1023 → c.valid = true) := by
  obtain ⟨-, hnl, -, -⟩ := h.fields
  rw [hnl, Ne, ofInt_pairZones_eq_zero_iff]
  cases h with
  | noZones hz =>
    exact ⟨.inr (.inl rfl), iff_of_true rfl hz, fun _ => rfl, fun hne => absurd hz hne, fun hne => absurd hz hne⟩
  | badReference hz hr =>
    exact ⟨.inr (.inr rfl), iff_of_false (fun h => CprReason.noConfusion h) hz, fun h => absurd h hz,
      fun _ _ => ⟨rfl, rfl⟩, fun _ hr' => absurd (hr.symm.trans hr') Bool.false_ne_true⟩
  | valid hz hr =>
    exact ⟨.inl rfl, iff_of_false (fun h => CprReason.noConfusion h) hz, fun h => absurd h hz,
      fun _ hr' => absurd (hr'.symm.trans hr) Bool.false_ne_true, fun _ _ _ => rfl⟩
  | overflow hz hr hlon =>
    refine ⟨.inr (.inr rfl), iff_of_false (fun h => CprReason.noConfusion h) hz, fun h => absurd h hz,
      fun _ hr' => absurd (hr'.symm.trans hr) Bool.false_ne_true, fun _ _ hle => ?_⟩
    have hfin := (movedLongitude_isBinary64 (pairEven E O) (nl := pairZones E O) (nlZones_le _) E.lon O.lon
      (isBinary64_ofBits hr) hle).finite
    exact absurd (hlon.symm.trans hfin) Bool.false_ne_true

/-- Settles O57: the clauses on VALID hold of every result, those on the reason of every outcome inside the
window. -/
theorem cprValidity : Obligations.CprValidity := by
  intro s p hs
  obtain ⟨t, hexec, hcpr⟩ := exec_cprResolve hs
  obtain ⟨hiff, hposition, hnone⟩ := cprResolve_sound p.snap.slot0 p.snap.slot1 p.snap.refLon
  rw [← hcpr] at hiff hposition hnone
  refine ⟨t, hexec, readReg_cprStatus_toNat t, hiff, hposition, hnone, fun hf hts => ?_⟩
  obtain ⟨E, O, hroles⟩ := exists_roles hf
  rw [hcpr, hroles.cprResolve]
  exact (resolvePair_outcome (hroles.within hts) p.snap.refLon).reasons

end Sys2Proof.Proofs
end

section
/-! The host's accesses (R51 to R54): which addresses the bus answers, what an access at a reserved offset or a
write to a read-only register does, and the reserved bits of the registers. -/

namespace Sys2Proof.Proofs

open Sys2Proof.Machine Sys2Proof.Claims

/-! ## The addresses the bus answers -/

/-- The bus answers a 32-bit access at each of the 128 aligned offsets with that offset (R51). -/
theorem busOffset_aligned (s : State) {k : Nat} (hk : k < 128) :
    busOffset s (baseAddress s + 4 * k) 4 = some (4 * k) := by
  have hspace : 4 * k < Config.spaceBytes := by unfold Config.spaceBytes; omega
  simp [busOffset, hspace]

/-- The bus answers no other access (R52). -/
theorem busOffset_eq_none {s : State} {addr size : Nat}
    (h : ¬(size = 4 ∧ ∃ k, k < 128 ∧ addr = baseAddress s + 4 * k)) : busOffset s addr size = none := by
  refine if_neg fun ⟨hsize, hlow, hhigh, haligned⟩ => h ⟨hsize, (addr - baseAddress s) / 4, ?_, ?_⟩
  · unfold Config.spaceBytes at hhigh
    omega
  · omega

section accesses
variable {s : State} {addr size off : Nat} (hreset : s.resetAsserted = false)
include hreset

/-- A host read the bus answers (R51, R58). -/
theorem hostRead_answered (h : busOffset s addr size = some off) :
    hostRead addr size s = .next { s with response := .data (readOffset s off) } := by
  simp [hostRead, hreset, h]

/-- A host write the bus answers (R51). -/
theorem hostWrite_answered (h : busOffset s addr size = some off) (v : Word) :
    hostWrite addr size v s = .next { writeOffset s off v with response := .nothing } := by
  simp [hostWrite, hreset, h]

/-- A host read the bus does not answer (R52). -/
theorem hostRead_busError (h : busOffset s addr size = none) : hostRead addr size s = .fault .busError := by
  simp [hostRead, hreset, h]

/-- A host write the bus does not answer (R52). -/
theorem hostWrite_busError (h : busOffset s addr size = none) (v : Word) :
    hostWrite addr size v s = .fault .busError := by
  simp [hostWrite, hreset, h]

end accesses

/-- Settles O14: the two kinds of access, each answered or not as the bus answers its address. -/
theorem busErrorsExactly : Obligations.BusErrorsExactly := by
  intro s addr size v rest e hreset he hmove
  by_cases hanswered : size = 4 ∧ ∃ k, k < 128 ∧ addr = baseAddress s + 4 * k
  · obtain ⟨t, ht⟩ : ∃ t, step s = .next t := by
      obtain ⟨rfl, k, hk, rfl⟩ := hanswered
      have hbus := busOffset_aligned { s with events := rest } hk
      rw [step_cons hmove]
      rcases he with rfl | rfl
      · exact ⟨_, hostRead_answered (s := { s with events := rest }) hreset hbus⟩
      · exact ⟨_, hostWrite_answered (s := { s with events := rest }) hreset hbus v⟩
    exact ⟨iff_of_false (by simp [ht]) (not_not_intro hanswered), fun _ => ⟨t, ht⟩⟩
  · have hbus : busOffset { s with events := rest } addr size = none := busOffset_eq_none hanswered
    have hfault : step s = .fault .busError := by
      rw [step_cons hmove]
      rcases he with rfl | rfl
      · exact hostRead_busError (s := { s with events := rest }) hreset hbus
      · exact hostWrite_busError (s := { s with events := rest }) hreset hbus v
    exact ⟨iff_of_true hfault hanswered, fun h => absurd h hanswered⟩

/-! ## Accesses that store nothing -/

/-- No register stands at a reserved offset (R24). -/
theorem regAt_eq_none {off : Nat} (h : ∀ r : Reg, regOffset r ≠ off) : regAt off = none :=
  List.find?_eq_none.mpr fun r _ => by simpa using h r

theorem readOffset_reserved {off : Nat} (h : regAt off = none) (s : State) : readOffset s off = 0 := by
  simp only [readOffset, h]

theorem writeOffset_reserved {off : Nat} (h : regAt off = none) (s : State) (v : Word) :
    writeOffset s off v = s := by
  simp only [writeOffset, h]

/-- A register that is neither CMD nor an input register ignores a write (R54). -/
theorem writeReg_readOnly {r : Reg} (hcmd : r ≠ .cmd) (hro : writableMask r = none) (s : State) (v : Word) :
    writeReg s r v = s := by
  rw [writeReg, if_neg hcmd]
  cases r with
  | frameLen | frame0 | frame1 | frame2 | frame3 | slot0F | slot0Lat | slot0Lon | slot0TsLo | slot0TsHi
  | slot1F | slot1Lat | slot1Lon | slot1TsLo | slot1TsHi | refLatLo | refLatHi | refLonLo | refLonHi
  | nlLatLo | nlLatHi => exact absurd hro (by decide)
  | _ => rfl

/-- Settles O13: the write reaches the register, which keeps the state as it is. -/
theorem readOnlyWriteIgnored : Obligations.ReadOnlyWriteIgnored := by
  refine ⟨fun s => rfl, fun s r v rest hreset hcmd hro hmove => ?_⟩
  have hwrite := hostWrite_register (s := { s with events := rest }) hreset r v
  rw [writeReg_readOnly hcmd hro] at hwrite
  exact (step_cons hmove).trans hwrite

/-! ## Reserved bits that are read -/

/-- Every bit of `w` outside `mask` is 0. -/
def OnlyBits {n : Nat} (mask w : BitVec n) : Prop := w &&& ~~~mask = 0#n

namespace OnlyBits

/-- A field may set every bit of its place. -/
theorem field {n : Nat} (x : BitVec n) : OnlyBits (BitVec.allOnes n) x := by
  rw [OnlyBits, BitVec.not_allOnes, BitVec.and_zero]

/-- A reserved place of `n` bits holds zeros. -/
theorem gap (n : Nat) : OnlyBits 0#n 0#n := BitVec.zero_and

/-- Places side by side. -/
theorem append {m n : Nat} {a x : BitVec m} {b y : BitVec n} (hx : OnlyBits a x) (hy : OnlyBits b y) :
    OnlyBits (a ++ b) (x ++ y) := by
  unfold OnlyBits at *
  rw [BitVec.not_append, BitVec.and_append, hx, hy, BitVec.zero_append_zero]

/-- A field below a reserved place that fills the rest of the word. -/
theorem belowGap (m : Nat) {n : Nat} (x : BitVec n) : OnlyBits (0#m ++ BitVec.allOnes n) (0#m ++ x) :=
  (gap m).append (field x)

/-! The packed words, place by place, bit 31 first; `OnlyBits` evaluates the mask the places make up. -/

/-- FRAME3 and CFRAME3 (R29, R30). -/
theorem frameWord3 (F : Frame) : OnlyBits 0xFFFF0000#32 (frameWord3 F) :=
  ((field _).append (gap 16) :)

/-- STATUS (R25). -/
theorem statusWord (s : State) : OnlyBits 0x0000FF07#32 (statusWord s) :=
  (gap 16 |>.append (field s.lastop) |>.append (gap 5) |>.append (field _) |>.append (field _)
    |>.append (field _) :)

/-- MSG_KIND (R33). -/
theorem msgKindWord (m : MsgRecord) : OnlyBits 0x00000073#32 (msgKindWord m) :=
  (gap 25 |>.append (field _) |>.append (gap 2) |>.append (field _) :)

/-- MSG_TCDF (R34). -/
theorem msgTcdfWord (m : MsgRecord) : OnlyBits 0x00001F1F#32 (msgTcdfWord m) :=
  (gap 19 |>.append (field m.df) |>.append (gap 3) |>.append (field m.tc) :)

/-- ID_CAT (R36). -/
theorem idCatWord (r : IdRecord) : OnlyBits 0x0000371F#32 (idCatWord r) :=
  (gap 18 |>.append (field r.set) |>.append (gap 1) |>.append (field r.ca) |>.append (gap 3)
    |>.append (field r.cat) :)

/-- POS_FLAGS (R38). -/
theorem posFlagsWord (r : PosRecord) : OnlyBits 0x00001113#32 (posFlagsWord r) :=
  (gap 19 |>.append (field r.f) |>.append (gap 3) |>.append (field r.t) |>.append (gap 3)
    |>.append (field r.nicsb) |>.append (gap 2) |>.append (field r.ss) :)

/-- POS_ALTINFO (R39). -/
theorem altInfoWord (i : AltInfo) : OnlyBits 0x7FF7FF07#32 (altInfoWord i) :=
  (gap 1 |>.append (field i.n25) |>.append (gap 1) |>.append (field i.n100) |>.append (field i.n500)
    |>.append (gap 5) |>.append (field i.q) |>.append (field _) :)

/-- CPR_STATUS (R44). -/
theorem cprStatusWord (c : CprResult) : OnlyBits 0x00000171#32 (cprStatusWord c) :=
  (gap 23 |>.append (field c.used) |>.append (gap 1) |>.append (field _) |>.append (gap 3)
    |>.append (field _) :)

end OnlyBits

/-- A register reads 0 in its reserved bits (R53). -/
theorem readReg_onlyBits (s : State) (r : Reg) : OnlyBits (definedBits r) (readReg s r) := by
  cases r with
  | cmd => exact .gap 32
  | status => exact .statusWord s
  | faultCode => exact .belowGap 28 (faultCodeBits s.faultCode)
  | frameLen => exact .belowGap 24 s.frameLen
  | frame3 => exact .frameWord3 s.frame
  | cframe3 => exact .frameWord3 s.cframe
  | msgKind => exact .msgKindWord s.msg
  | msgIcao => exact .belowGap 8 s.msg.icao
  | msgTcdf => exact .msgTcdfWord s.msg
  | idCat => exact .idCatWord s.msg.id
  | idNameLen => exact .belowGap 28 s.msg.id.nameLen
  | posFlags => exact .posFlagsWord s.msg.pos
  | posAltRaw => exact .belowGap 20 s.msg.pos.altRaw
  | posAltInfo => exact .altInfoWord s.msg.pos.altInfo
  | posLatCpr => exact .belowGap 15 s.msg.pos.latCpr
  | posLonCpr => exact .belowGap 15 s.msg.pos.lonCpr
  | velSub => exact .belowGap 29 s.msg.vel.sub
  | slot0F => exact .belowGap 31 s.slot0.f
  | slot0Lat => exact .belowGap 15 s.slot0.lat
  | slot0Lon => exact .belowGap 15 s.slot0.lon
  | slot1F => exact .belowGap 31 s.slot1.f
  | slot1Lat => exact .belowGap 15 s.slot1.lat
  | slot1Lon => exact .belowGap 15 s.slot1.lon
  | cprStatus => exact .cprStatusWord s.cpr
  | _ => exact .field _

/-! ## Reserved bits that are written -/

/-- The reserved bits of a written value do not reach an input register (R28, R29, R42, R53). -/
theorem writeInput_and_mask {r : Reg} {m : Word} (hm : writableMask r = some m) (s : State) (v : Word) :
    writeInput s (v &&& m) r = writeInput s v r := by
  cases r with
  | frameLen =>
    cases hm
    simp only [writeInput, and_byteMask, BitVec.extractLsb'_append_eq_right]
  | frame3 =>
    cases hm
    simp only [writeInput, withFrameWord3, and_highHalfMask, BitVec.extractLsb'_append_eq_left]
  | slot0F | slot1F =>
    cases hm
    simp only [writeInput, writeSlotF, and_bitMask, BitVec.extractLsb'_append_eq_right]
  | slot0Lat | slot0Lon | slot1Lat | slot1Lon =>
    cases hm
    simp only [writeInput, writeSlotLat, writeSlotLon, and_coordinateMask, BitVec.extractLsb'_append_eq_right]
  | frame0 | frame1 | frame2 | slot0TsLo | slot0TsHi | slot1TsLo | slot1TsHi | refLatLo | refLatHi | refLonLo
  | refLonHi | nlLatLo | nlLatHi =>
    cases hm
    rw [and_fullMask]
  | _ => cases hm

/-- A write to an input register stores the same whatever its reserved bits are (R53). -/
theorem writeReg_and_mask {r : Reg} {m : Word} (hm : writableMask r = some m) (s : State) (v : Word) :
    writeReg s r (v &&& m) = writeReg s r v := by
  have hcmd : r ≠ .cmd := by rintro rfl; cases hm
  rw [writeReg, writeReg, if_neg hcmd, if_neg hcmd, writeInput_and_mask hm]

/-- Settles O11: the registers' words place by place, the writes under their masks, and the two accesses of an
offset at which no register stands. -/
theorem reservedOffsets : Obligations.ReservedOffsets := by
  refine ⟨readReg_onlyBits, fun s r m v hm => (writeReg_and_mask hm s v).symm,
    fun s k v rest hreset hk hnone => ⟨fun hmove => ?_, fun hmove => ?_⟩⟩
  · have hread := hostRead_answered (s := { s with events := rest }) hreset (busOffset_aligned _ hk)
    rw [readOffset_reserved (regAt_eq_none hnone)] at hread
    exact (step_cons hmove).trans hread
  · have hwrite := hostWrite_answered (s := { s with events := rest }) hreset (busOffset_aligned _ hk) v
    rw [writeOffset_reserved (regAt_eq_none hnone)] at hwrite
    exact (step_cons hmove).trans hwrite

end Sys2Proof.Proofs
end

section
/-! The command word as a number (R60 to R68): the operand stands above the eight opcode bits, the reserved bits of
a format are those above its operand, and so a word decodes to a command exactly when it is its encoding. -/

namespace Sys2Proof.Proofs

open Sys2Proof.Machine Sys2Proof.Claims

/-! ## The operand of a command -/

/-- The bits of a format's operand, from bit 8 up (R61). -/
def operandWidth : Format → Nat
  | .N => 0
  | .X => 14
  | .G => 3
  | .A => 12
  | .S => 1

/-- The operand of a command as the number that stands above its opcode (R61). -/
def operandValue : Instr → Nat
  | .extract start len => 128 * len.toNat + start.toNat
  | .gray3 g => g.toNat
  | .alt12 alt => alt.toNat
  | .posToSlot slot => slot.toNat
  | .nop | .crcCheck | .crcCorrect | .decode | .decId | .decPos | .decVel | .cprNl | .cprResolve => 0

/-- The operand fits its format (R61). -/
theorem operandValue_lt (i : Instr) : operandValue i < 2 ^ operandWidth i.format := by
  cases i with
  | extract start len =>
    have := start.isLt
    have := len.isLt
    simp only [operandValue, Instr.format, operandWidth]
    omega
  | gray3 g => exact g.isLt
  | alt12 alt => exact alt.isLt
  | posToSlot slot => exact slot.isLt
  | _ => exact Nat.one_pos

/-- A field put above the bits of a word below `2^k`. -/
theorem toNat_field_or {n : Nat} (x : BitVec n) {y : Word} {k : Nat} (hk : n + k ≤ 32) (hy : y.toNat < 2 ^ k) :
    (x.setWidth 32 <<< k ||| y).toNat = 2 ^ k * x.toNat + y.toNat := by
  have hfit : x.toNat * 2 ^ k < 2 ^ 32 :=
    calc x.toNat * 2 ^ k < 2 ^ n * 2 ^ k := Nat.mul_lt_mul_of_pos_right x.isLt (Nat.two_pow_pos k)
      _ = 2 ^ (n + k) := (pow_add 2 n k).symm
      _ ≤ 2 ^ 32 := Nat.pow_le_pow_right (by decide) hk
  have hx : x.toNat < 2 ^ 32 := (Nat.le_mul_of_pos_right _ (Nat.two_pow_pos k)).trans_lt hfit
  rw [BitVec.toNat_or, BitVec.toNat_shiftLeft, BitVec.toNat_setWidth, Nat.mod_eq_of_lt hx, Nat.shiftLeft_eq,
    Nat.mod_eq_of_lt hfit, Nat.mul_comm, Nat.two_pow_add_eq_or_of_lt hy]

/-- The word of a command: its operand above its opcode (R61, R68). -/
theorem encode_toNat (i : Instr) : (encode i).toNat = 256 * operandValue i + i.opcode.toNat := by
  cases i with
  | extract start len =>
    have hlow : (start.setWidth 32 <<< 8 ||| 1#32).toNat = 2 ^ 8 * start.toNat + 1 :=
      toNat_field_or start (by decide) (by decide)
    have hword : encode (.extract start len) = len.setWidth 32 <<< 15 ||| (start.setWidth 32 <<< 8 ||| 1#32) :=
      BitVec.or_assoc _ _ _
    rw [hword, toNat_field_or len (by decide) (by omega), hlow]
    simp only [operandValue, Instr.opcode, BitVec.toNat_ofNat]
    omega
  | gray3 g => exact toNat_field_or g (y := 0x06#32) (by decide) (by decide)
  | alt12 alt => exact toNat_field_or alt (y := 0x07#32) (by decide) (by decide)
  | posToSlot slot => exact toNat_field_or slot (y := 0x0A#32) (by decide) (by decide)
  | _ => rfl

/-! ## The fields of a word -/

section fields
variable (w : Word)

theorem opField_toNat : (opField w).toNat = w.toNat % 256 := by
  simp [opField]

theorem startField_toNat : (startField w).toNat = w.toNat / 256 % 128 := by
  simp [startField, Nat.shiftRight_eq_div_pow]

theorem lenField_toNat : (lenField w).toNat = w.toNat / 32768 % 128 := by
  simp [lenField, Nat.shiftRight_eq_div_pow]

theorem grayField_toNat : (grayField w).toNat = w.toNat / 256 % 8 := by
  simp [grayField, Nat.shiftRight_eq_div_pow]

theorem altField_toNat : (altField w).toNat = w.toNat / 256 % 4096 := by
  simp [altField, Nat.shiftRight_eq_div_pow]

theorem slotField_toNat : (slotField w).toNat = w.toNat / 256 % 2 := by
  simp [slotField, Nat.shiftRight_eq_div_pow]

end fields

/-- The operand of the command an opcode selects is the field of the word (R61, R63). -/
theorem selectByOpcode_operand {w : Word} {i : Instr} (h : selectByOpcode w = some i) :
    w.toNat / 256 % 2 ^ operandWidth i.format = operandValue i := by
  unfold selectByOpcode at h
  split at h <;> cases h <;> simp only [Instr.format, operandWidth, operandValue, startField_toNat, lenField_toNat,
    grayField_toNat, altField_toNat, slotField_toNat] <;> omega

/-- Above the opcode bits of an encoding stands the operand (R61). -/
theorem encode_div (i : Instr) : (encode i).toNat / 256 = operandValue i := by
  have := opcode_le i
  rw [encode_toNat]
  omega

theorem opField_encode (i : Instr) : opField (encode i) = i.opcode := by
  apply BitVec.eq_of_toNat_eq
  have := opcode_le i
  rw [opField_toNat, encode_toNat]
  omega

theorem startField_encode (start len : BitVec 7) : startField (encode (.extract start len)) = start := by
  apply BitVec.eq_of_toNat_eq
  rw [startField_toNat, encode_div]
  exact (Nat.mul_add_mod 128 len.toNat start.toNat).trans (Nat.mod_eq_of_lt start.isLt)

theorem lenField_encode (start len : BitVec 7) : lenField (encode (.extract start len)) = len := by
  apply BitVec.eq_of_toNat_eq
  have hdiv : (encode (.extract start len)).toNat / 256 = 128 * len.toNat + start.toNat := encode_div _
  have := start.isLt
  rw [lenField_toNat]
  omega

theorem grayField_encode (g : BitVec 3) : grayField (encode (.gray3 g)) = g :=
  BitVec.eq_of_toNat_eq (by rw [grayField_toNat, encode_div]; exact Nat.mod_eq_of_lt g.isLt)

theorem altField_encode (alt : BitVec 12) : altField (encode (.alt12 alt)) = alt :=
  BitVec.eq_of_toNat_eq (by rw [altField_toNat, encode_div]; exact Nat.mod_eq_of_lt alt.isLt)

theorem slotField_encode (slot : BitVec 1) : slotField (encode (.posToSlot slot)) = slot :=
  BitVec.eq_of_toNat_eq (by rw [slotField_toNat, encode_div]; exact Nat.mod_eq_of_lt slot.isLt)

/-- An encoding selects its command (R63, R68). -/
theorem selectByOpcode_encode (i : Instr) : selectByOpcode (encode i) = some i := by
  unfold selectByOpcode
  rw [opField_encode]
  cases i with
  | extract start len => simp [Instr.opcode, startField_encode, lenField_encode]
  | gray3 g => simp [Instr.opcode, grayField_encode]
  | alt12 alt => simp [Instr.opcode, altField_encode]
  | posToSlot slot => simp [Instr.opcode, slotField_encode]
  | _ => rfl

/-! ## The reserved bits -/

/-- A word has no bit at or above bit `k` exactly when it is below `2^k`. -/
theorem and_highMask_eq_zero_iff (w : Word) (k : Nat) :
    w &&& BitVec.allOnes 32 <<< k = 0#32 ↔ w.toNat < 2 ^ k := by
  have hle : w.toNat / 2 ^ k * 2 ^ k < 2 ^ 32 := (Nat.div_mul_le_self _ _).trans_lt w.isLt
  rw [← BitVec.shiftLeft_ushiftRight, BitVec.toNat_eq, BitVec.toNat_shiftLeft, BitVec.toNat_ushiftRight,
    Nat.shiftRight_eq_div_pow, Nat.shiftLeft_eq, Nat.mod_eq_of_lt hle, BitVec.toNat_ofNat]
  simp

/-- The reserved bits of a format are those above its operand (R64). -/
theorem reservedMask_eq (f : Format) : reservedMask f = BitVec.allOnes 32 <<< (8 + operandWidth f) := by
  cases f <;> rfl

/-! ## Decoder and encoder -/

/-- A word decodes to a command exactly when it is the command's encoding and the operands are legal: an encoding
drops no bit, and the checks of R64 leave no bit free. -/
theorem decode_eq_ok_iff (w : Word) (i : Instr) : decode w = .ok i ↔ w = encode i ∧ i.wellFormed = true := by
  rw [decode_ok_iff, reservedMask_eq, and_highMask_eq_zero_iff, pow_add]
  constructor
  · rintro ⟨hsel, hlt, hwf⟩
    refine ⟨BitVec.eq_of_toNat_eq ?_, hwf⟩
    have hop : w.toNat % 256 = i.opcode.toNat := by rw [← opField_toNat, selectByOpcode_opcode hsel]
    have hoperand : w.toNat / 256 = operandValue i := by
      rw [← selectByOpcode_operand hsel]
      exact (Nat.mod_eq_of_lt (Nat.div_lt_of_lt_mul hlt)).symm
    rw [encode_toNat]
    omega
  · rintro ⟨rfl, hwf⟩
    refine ⟨selectByOpcode_encode i, ?_, hwf⟩
    have := operandValue_lt i
    have := opcode_le i
    rw [encode_toNat]
    omega

/-- Settles O1: an encoding decodes to its command when the operands are legal. -/
theorem decodeOfEncode : Obligations.DecodeOfEncode :=
  fun i hwf => (decode_eq_ok_iff (encode i) i).2 ⟨rfl, hwf⟩

/-- Settles O3: the nine words, evaluated. -/
theorem sampleWordsDecode : Obligations.SampleWordsDecode := by
  unfold Obligations.SampleWordsDecode
  decide

/-- A word that is no command raises its fault in an IDLE block (R64, R66). -/
theorem hostCommand_of_decode_error {w : Word} {s : State} {e : DecodeError} (hs : s.cst = .idle)
    (hd : decode w = .error e) : hostCommand w s = raiseFault (decodeFault e) w s := by
  simp only [hostCommand, hs, hd]

/-- Settles O2: the decoder's answer decides between the two, and a command has one word. -/
theorem everyWordIsCommandOrFault : Obligations.EveryWordIsCommandOrFault := by
  intro w s hs
  cases hd : decode w with
  | ok i =>
    obtain ⟨hw, hwf⟩ := (decode_eq_ok_iff w i).1 hd
    exact .inl ⟨i, rfl, hwf, hw.symm, fun v hv => ((decode_eq_ok_iff v i).1 hv).1.trans hw.symm⟩
  | error e =>
    rw [hostCommand_of_decode_error hs hd]
    exact .inr ⟨rfl, decodeFault_ne_noFault e⟩

end Sys2Proof.Proofs
end

section
/-! A host write to CMD by the bits of the word (R64, R203): each check of acceptance as a condition on the word's
fields, and the write as a step of the schedule. -/

namespace Sys2Proof.Proofs

open Sys2Proof.Machine Sys2Proof.Claims

/-- The opcode check fails above 0x0C (R63, R64). -/
theorem selectByOpcode_eq_none {w : Word} (h : 0x0C < w.toNat % 256) : selectByOpcode w = none := by
  rw [Option.eq_none_iff_forall_ne_some]
  intro i hi
  have := opcode_le i
  rw [← selectByOpcode_opcode hi, opField_toNat] at this
  omega

/-- Every opcode up to 0x0C selects a command (R63). -/
theorem exists_selectByOpcode {w : Word} (h : ¬ 0x0C < w.toNat % 256) :
    ∃ i, selectByOpcode w = some i ∧ i.opcode.toNat = w.toNat % 256 := by
  have hsome : ∃ i, selectByOpcode w = some i := by
    rw [← opField_toNat] at h
    unfold selectByOpcode
    interval_cases (opField w).toNat <;> exact ⟨_, rfl⟩
  obtain ⟨i, hi⟩ := hsome
  exact ⟨i, hi, by rw [← selectByOpcode_opcode hi, opField_toNat]⟩

/-- The reserved bits of a command, by its opcode (R63, R64). -/
theorem maskOfOpcode_opcode (i : Instr) : maskOfOpcode i.opcode.toNat = reservedMask i.format := by
  cases i <;> rfl

/-- The operands of a selected command are illegal exactly by the EXTRACT range (R64, R82). -/
theorem wellFormed_eq_false_iff {w : Word} {i : Instr} (h : selectByOpcode w = some i) :
    i.wellFormed = false ↔ w.toNat % 256 = 0x01 ∧
      (64 < w.toNat / 32768 % 128 ∨ 112 < w.toNat / 256 % 128 + w.toNat / 32768 % 128) := by
  have hop : i.opcode.toNat = w.toNat % 256 := by rw [← selectByOpcode_opcode h, opField_toNat]
  have hoperand := selectByOpcode_operand h
  cases i with
  | extract start len =>
    have hstart := start.isLt
    simp only [Instr.format, operandWidth, operandValue] at hoperand
    simp only [Instr.opcode, BitVec.toNat_ofNat] at hop
    simp only [Instr.wellFormed, extractLenOk, extractEndOk, Bool.and_eq_false_iff, decide_eq_false_iff_not]
    omega
  | _ =>
    simp only [Instr.opcode, BitVec.toNat_ofNat] at hop
    exact iff_of_false nofun fun hx => by omega

/-- The source check, by the opcode (R64). -/
theorem sourceFault_eq (i : Instr) (kind : MsgKind) :
    sourceFault i kind = if i.opcode.toNat = 0x0A ∧ kind ≠ .airbornePosition then some .slotSource else none := by
  cases i with
  | posToSlot slot => by_cases h : kind = .airbornePosition <;> simp [sourceFault, Instr.opcode, h]
  | _ => rfl

theorem decode_illegalOpcode {w : Word} (h : 0x0C < w.toNat % 256) : decode w = .error .illegalOpcode := by
  simp only [decode, selectByOpcode_eq_none h]

/-- The checks of R64 after that of the opcode. -/
theorem decode_of_selectByOpcode {w : Word} {i : Instr} (h : selectByOpcode w = some i) :
    decode w = if w &&& reservedMask i.format ≠ 0 then .error .reservedBits
      else if i.wellFormed then .ok i else .error .extractRange := by
  simp only [decode, h]

section idle
variable {s : State} (hs : s.cst = .idle) {w : Word} {i : Instr} (hd : decode w = .ok i)
include hs hd

/-- A command whose source is refused (R64). -/
theorem hostCommand_of_sourceFault {code : FaultCode} (hsrc : sourceFault i s.msg.kind = some code) :
    hostCommand w s = raiseFault code w s := by
  simp only [hostCommand, hs, hd, hsrc]

/-- A command that every check lets through (R64). -/
theorem hostCommand_of_accepted (hsrc : sourceFault i s.msg.kind = none) : hostCommand w s = acceptWord w s := by
  simp only [hostCommand, hs, hd, hsrc]

end idle

/-- A host write to CMD of an IDLE block, by the bits of the word: the four checks in their order, then acceptance
(R64). -/
theorem hostCommand_idle {s : State} (hs : s.cst = .idle) (w : Word) :
    hostCommand w s =
      if 0x0C < w.toNat % 256 then raiseFault .illegalOpcode w s
      else if w &&& maskOfOpcode (w.toNat % 256) ≠ 0 then raiseFault .reservedBits w s
      else if w.toNat % 256 = 0x01 ∧
          (64 < w.toNat / 32768 % 128 ∨ 112 < w.toNat / 256 % 128 + w.toNat / 32768 % 128) then
        raiseFault .extractRange w s
      else if w.toNat % 256 = 0x0A ∧ s.msg.kind ≠ .airbornePosition then raiseFault .slotSource w s
      else acceptWord w s := by
  by_cases hop : 0x0C < w.toNat % 256
  · rw [if_pos hop]
    exact hostCommand_of_decode_error hs (decode_illegalOpcode hop)
  obtain ⟨i, hsel, hi⟩ := exists_selectByOpcode hop
  have hdecode := decode_of_selectByOpcode hsel
  have hwf := wellFormed_eq_false_iff hsel
  have hsource := sourceFault_eq i s.msg.kind
  rw [← hi] at hwf
  rw [if_neg hop, ← hi, maskOfOpcode_opcode]
  split_ifs with hmask hrange hposition
  · rw [if_pos hmask] at hdecode
    exact hostCommand_of_decode_error hs hdecode
  · rw [if_neg hmask, if_neg (by simp [hwf.2 hrange])] at hdecode
    exact hostCommand_of_decode_error hs hdecode
  · rw [if_neg hmask, if_pos (by simpa [hrange] using hwf)] at hdecode
    rw [if_pos hposition] at hsource
    exact hostCommand_of_sourceFault hs hdecode hsource
  · rw [if_neg hmask, if_pos (by simpa [hrange] using hwf)] at hdecode
    rw [if_neg hposition] at hsource
    exact hostCommand_of_accepted hs hdecode hsource

/-- A write to CMD is dropped while FAULTED (R203). -/
theorem hostCommand_faulted {s : State} (hs : s.cst = .faulted) (w : Word) : hostCommand w s = s := by
  simp only [hostCommand, hs]

/-- A write to CMD while a command is pending is an overrun (R64). -/
theorem hostCommand_busy {s : State} {p : Pending} (hs : s.cst = .busy p) (w : Word) :
    hostCommand w s = raiseFault .overrun w s := by
  simp only [hostCommand, hs]

/-- The host's last answer enters no check of a CMD write (R64). -/
theorem hostCommand_withResponse (w : Word) (s : State) (r : Response) :
    { hostCommand w s with response := r } = hostCommand w { s with response := r } := by
  rcases hostCommand_cases w s with ⟨hs, h⟩ | ⟨⟨p, hs⟩, h⟩ | ⟨hs, e, hd, h⟩ | ⟨hs, i, code, hd, hsrc, h⟩ |
    ⟨hs, i, hd, hsrc, h⟩ <;> rw [h]
  · exact (hostCommand_faulted (s := { s with response := r }) hs w).symm
  · exact (hostCommand_busy (s := { s with response := r }) hs w).symm
  · exact (hostCommand_of_decode_error (s := { s with response := r }) hs hd).symm
  · exact (hostCommand_of_sourceFault (s := { s with response := r }) hs hd hsrc).symm
  · exact (hostCommand_of_accepted (s := { s with response := r }) hs hd hsrc).symm

/-- The step of a host write to CMD (R51, R64). -/
theorem step_cmdWrite {s : State} {w : Word} {rest : List Event} (hreset : s.resetAsserted = false)
    (hmove : s.events = .write (baseAddress s) 4 w :: rest) :
    step s = .next (hostCommand w { s with events := rest, response := .nothing }) := by
  have hwrite := hostWrite_register (s := { s with events := rest }) hreset .cmd w
  rw [show regOffset .cmd = 0 from rfl, Nat.add_zero, writeReg, if_pos rfl, hostCommand_withResponse] at hwrite
  exact (step_cons hmove).trans hwrite

/-- Settles O4: dropped while FAULTED, OVERRUN while BUSY, and the checks by the bits of the word while IDLE. -/
theorem commandWriteChecks : Obligations.CommandWriteChecks := by
  intro s w rest hreset hmove u op start len faultOf snap
  rw [step_cmdWrite hreset hmove]
  refine congrArg Host.Outcome.next ?_
  change hostCommand w u = _
  split
  next hs => exact hostCommand_faulted (s := u) hs w
  next p hs => exact hostCommand_busy (s := u) hs w
  next hs => exact hostCommand_idle (s := u) hs w

end Sys2Proof.Proofs
end

section
/-! The completion of a command (R65, R232, R233): which registers its results leave alone, and that an accepted
command reaches it without a fault. -/

namespace Sys2Proof.Proofs

open Sys2Proof.Machine Sys2Proof.Claims

/-! ## What the results leave alone -/

/-- DONE and CST show in STATUS only (R65). -/
theorem readReg_finish {r : Reg} (hr : r ≠ .status) (s : State) : readReg (finish s) r = readReg s r :=
  readReg_withStatus hr s .idle true s.lastop

section frames
variable {r : Reg} (s : State)

theorem readReg_setRes_of_notMem (h : r ∉ resRegs) (lo hi : Word) : readReg (setRes lo hi s) r = readReg s r := by
  cases r with
  | res0 | res1 => exact absurd (by decide) h
  | _ => rfl

theorem readReg_setCrc_of_notMem (h : r ∉ crcRegs) (cf : Frame) (info : CrcInfo) :
    readReg (setCrc cf info s) r = readReg s r := by
  cases r with
  | cframe0 | cframe1 | cframe2 | cframe3 | crcInfo => exact absurd (by decide) h
  | _ => rfl

theorem readReg_setCpr_of_notMem (h : r ∉ cprRegs) (c : CprResult) : readReg (setCpr c s) r = readReg s r := by
  cases r with
  | cprStatus | cprNl | cprJ | cprM | cprLatLo | cprLatHi | cprLonLo | cprLonHi => exact absurd (by decide) h
  | _ => rfl

/-- The frame of a finished write of MSG, without the finish. -/
theorem readReg_setMsg_of_notMem (h : r ∉ msgRegs) (m : MsgRecord) : readReg (setMsg m s) r = readReg s r := by
  by_cases hr : r = .status
  · rw [hr]
    rfl
  · obtain ⟨-, -, hframe, -⟩ := completesWriting_setMsg m s
    exact (readReg_finish hr _).symm.trans (hframe r (by simp [hr, h]))

theorem readReg_setSlot_of_notMem {n : BitVec 1} (h : r ∉ slotRegs n) (x : Slot) :
    readReg (setSlot n x s) r = readReg s r := by
  by_cases hn : n = 0
  · rw [slotRegs, if_pos hn] at h
    rw [setSlot, if_pos hn]
    cases r with
    | slot0F | slot0Lat | slot0Lon | slot0TsLo | slot0TsHi => exact absurd (by decide) h
    | _ => rfl
  · rw [slotRegs, if_neg hn] at h
    rw [setSlot, if_neg hn]
    cases r with
    | slot1F | slot1Lat | slot1Lon | slot1TsLo | slot1TsHi => exact absurd (by decide) h
    | _ => rfl

end frames

/-- A command's results change its own result registers only (R82 to R163). -/
theorem readReg_resultsOf_of_notMem {i : Instr} {r : Reg} (h : r ∉ writtenRegs i) (p : Pending) (s : State) :
    readReg (resultsOf i p s) r = readReg s r := by
  cases i with
  | nop => rfl
  | extract | gray3 | alt12 | cprNl => exact readReg_setRes_of_notMem s h _ _
  | crcCheck | crcCorrect => exact readReg_setCrc_of_notMem s h _ _
  | decode =>
    rw [writtenRegs, List.mem_append, not_or] at h
    rw [resultsOf]
    split
    · exact readReg_setMsg_of_notMem s h.1 _
    · exact (readReg_setMsg_of_notMem _ h.1 _).trans (readReg_setCrc_of_notMem s h.2 _ _)
  | decId | decPos | decVel => exact readReg_setMsg_of_notMem s h _
  | posToSlot slot => exact readReg_setSlot_of_notMem s h _
  | cprResolve => exact readReg_setCpr_of_notMem s h _

/-- Settles O17: the command completes, its results stay in their registers, and DONE shows in STATUS. -/
theorem commandsCompleteWithFrame : Obligations.CommandsCompleteWithFrame := by
  intro i s p hs hwf hsrc
  have hexec := exec_next hs (operandFault_eq_none hwf hsrc)
  refine ⟨_, hexec, rfl, ?_, fun r hr => ?_, exec_sameOutside hexec⟩
  · obtain ⟨-, -, hlast, -⟩ := resultsOf_keeps i p s
    rw [readReg_status_finish, hlast]
  · rw [List.mem_cons, not_or] at hr
    rw [readReg_finish hr.1, readReg_resultsOf_of_notMem hr.2]

/-! ## An accepted command completes -/

/-- Settles O15: the completion move, and the step with no move left, are the block's own step. -/
theorem stepRunsPendingCommand : Obligations.StepRunsPendingCommand := by
  intro s p i hs hd
  exact ⟨fun hnil => (step_nil hnil).trans (blockStep_busy hs hd),
    fun rest hmove => (step_cons hmove).trans (blockStep_busy (s := { s with events := rest }) hs hd)⟩

/-- In a legal state the pending word is a command that acceptance let through (R47, R64). -/
theorem BlockLegal.accepted {s : State} {p : Pending} (h : BlockLegal s) (hs : s.cst = .busy p) :
    ∃ i, decode p.word = .ok i ∧ operandFault i p = none := by
  have hpending := h.pending
  simp only [pendingLegal, hs, Bool.and_eq_true] at hpending
  obtain ⟨⟨hword, -⟩, -⟩ := hpending
  cases hd : decode p.word with
  | error e => simp [hd] at hword
  | ok i =>
    refine ⟨i, rfl, (operandFault_of_decode hd).trans ?_⟩
    simpa [hd] using hword

/-- Settles O18: the pending word of a legal state is a command whose operands raise no fault. -/
theorem acceptedCommandsComplete : Obligations.AcceptedCommandsComplete := by
  intro s p hlegal hs hnil
  obtain ⟨hblock, -⟩ := (legalState_iff s).1 hlegal
  obtain ⟨i, hd, hnone⟩ := hblock.accepted hs
  obtain ⟨-, -, -, hcode, -⟩ := resultsOf_keeps i p s
  obtain ⟨hnoFault, -⟩ := hblock.noFault_of_busy hs
  exact ⟨_, ((step_nil hnil).trans (blockStep_busy hs hd)).trans (exec_next hs hnone), rfl, rfl,
    hcode.trans hnoFault⟩

/-! ## The placed command -/

/-- A table word that decodes is a 32-bit word of a command (R60). -/
theorem decodeTableWord_some {n w : Nat} {i : Instr} (h : decodeTableWord n w = some i) :
    decode (BitVec.ofNat 32 w) = .ok i := by
  unfold decodeTableWord at h
  split at h
  · cases hd : decode (BitVec.ofNat 32 w) with
    | error e => rw [hd] at h; cases h
    | ok j => rw [hd] at h; cases h; rfl
  · cases h

/-- The placement makes the source of the word's command legal (log 5). -/
theorem sourceFault_readyFor {w : Word} {i : Instr} (hd : decode w = .ok i) (s : State) :
    sourceFault i (readyFor w s).msg.kind = none := by
  cases i with
  | posToSlot slot => simp [sourceFault, readyFor, hd]
  | _ => rfl

/-- What the placement leaves pending: the word, with the snapshot of the state it made ready (log 5). -/
def placedPending (w : Word) (s : State) : Pending := ⟨w, takeSnapshot (readyFor w s), none⟩

section placed
variable {w : Word} {i : Instr} (hd : decode w = .ok i) (s : State)
include hd

/-- The placed state: the word accepted, its completion the next move (log 5). -/
theorem loadCommand_eq : loadCommand w s = { acceptWord w (readyFor w s) with events := .complete :: s.events } := by
  rw [loadCommand, hostCommand_of_accepted rfl hd (sourceFault_readyFor hd s)]

/-- The placed command's completion is the next step. -/
theorem step_loadCommand : step (loadCommand w s) = exec i (acceptWord w (readyFor w s)) := by
  have hmove : (loadCommand w s).events = .complete :: s.events := by rw [loadCommand]
  rw [step_cons hmove, loadCommand_eq hd]
  exact blockStep_busy (s := acceptWord w (readyFor w s)) (p := placedPending w s) rfl hd

/-- The placed command's completion raises no fault. -/
theorem exec_placed :
    exec i (acceptWord w (readyFor w s)) =
      .next (finish (resultsOf i (placedPending w s) (acceptWord w (readyFor w s)))) :=
  exec_next rfl ((operandFault_of_decode hd).trans (sourceFault_readyFor hd s))

end placed

/-- Settles O26: the placed word is accepted, and the step is its completion. -/
theorem placedCommandRunsNext : Obligations.PlacedCommandRunsNext := by
  intro s w i htable
  have hd := decodeTableWord_some htable
  have hexec := exec_placed hd s
  obtain ⟨-, -, -, hevents, -⟩ := exec_sameOutside hexec
  exact ⟨acceptWord (BitVec.ofNat 32 w) (readyFor (BitVec.ofNat 32 w) s), _, placedPending (BitVec.ofNat 32 w) s,
    rfl, rfl, rfl, rfl, rfl, rfl, step_loadCommand hd s, hexec, rfl, rfl, hevents⟩

end Sys2Proof.Proofs
end

section
/-! EXTRACT: the register pair RES1:RES0 holds the field as a number (R80, R82). -/

namespace Sys2Proof.Proofs

open Sys2Proof.Machine Sys2Proof.Claims

/-- The operand checks of EXTRACT (R82). -/
theorem wellFormed_extract_iff (start len : BitVec 7) :
    (Instr.extract start len).wellFormed = true ↔ len.toNat ≤ 64 ∧ start.toNat + len.toNat ≤ 112 := by
  simp only [Instr.wellFormed, extractLenOk, extractEndOk, Bool.and_eq_true, decide_eq_true_eq]

/-- A field of the frame fits every word that is at least as wide as the field (R12, R80). -/
theorem toNat_ofNat_fld_of_le {F : Frame} {a n m : Nat} (hwidth : n ≤ m) (hend : a + n ≤ 112) :
    (BitVec.ofNat m (fld F a n)).toNat = fieldOf F a n := by
  have hfits : fld F a n < 2 ^ m := (fld_lt F a n).trans_le (Nat.pow_le_pow_right two_pos hwidth)
  rw [BitVec.toNat_ofNat, Nat.mod_eq_of_lt hfits, fld_eq_div_mod F a n hend, fieldOf]

/-- The pair RES1:RES0 of a completed EXTRACT is the field as a doubleword (R32, R82). -/
theorem resPair_extract (start len : BitVec 7) (p : Pending) (s : State) :
    readReg (finish (resultsOf (.extract start len) p s)) .res1 ++
        readReg (finish (resultsOf (.extract start len) p s)) .res0 =
      BitVec.ofNat 64 (fld p.snap.frame start.toNat len.toNat) :=
  hiHalf_append_loHalf _

/-- Settles O27: the command completes with its frame, and the doubleword it leaves holds the whole field. -/
theorem extractReadsField : Obligations.ExtractReadsField := by
  intro s p start len hs hlen hend
  have hwf : (Instr.extract start len).wellFormed = true := (wellFormed_extract_iff start len).2 ⟨hlen, hend⟩
  have hsrc : ∀ slot, Instr.extract start len = .posToSlot slot → p.snap.msg.kind = .airbornePosition := nofun
  obtain ⟨t, hexec, hframe⟩ := commandsCompleteWithFrame _ s p hs hwf hsrc
  refine ⟨t, hexec, ?_, hframe⟩
  cases (exec_next hs (operandFault_eq_none hwf hsrc)).symm.trans hexec
  rw [resPair_extract, toNat_ofNat_fld_of_le hlen hend]

end Sys2Proof.Proofs
end

section
/-! CRC24 is linear over GF(2): each function of its computation carries XOR to XOR (R91, R95). -/

namespace Sys2Proof.Proofs

open Sys2Proof.Machine Sys2Proof.Claims

/-- Two sums, added summand by summand. -/
theorem xor_xor_xor_comm {n : Nat} (a b c d : BitVec n) : a ^^^ b ^^^ (c ^^^ d) = a ^^^ c ^^^ (b ^^^ d) := by
  ac_rfl

/-- Fields are read bit by bit, so the fields of a sum are the sums of the fields (R80). -/
theorem fld_xor (F E : Frame) (a n : Nat) : fld (F ^^^ E) a n = fld F a n ^^^ fld E a n := by
  induction n with
  | zero => simp only [fld, Nat.xor_self]
  | succ n ih =>
    have hbit : frameBit (F ^^^ E) (a + n) = (frameBit F (a + n) ^^ frameBit E (a + n)) := BitVec.getMsbD_xor
    simp only [fld, ih, hbit, ← Nat.bit_val, Nat.xor_bit]

theorem frameByte_xor (F E : Frame) (m : Nat) : frameByte (F ^^^ E) m = frameByte F m ^^^ frameByte E m := by
  simp only [frameByte, fld_xor, BitVec.ofNat_xor]

/-- One step of the register of R91 within 24 bits: the bit shifted out decides on the generator. -/
theorem crcShift_eq (acc : BitVec 24) :
    crcShift acc = acc <<< 1 ^^^ (if acc.msb then Config.crcPoly else 0) := by
  have hout : (acc.setWidth 25 <<< 1).getLsbD 24 = acc.msb := by simp [BitVec.msb_eq_getLsbD_last]
  have hlow : (acc.setWidth 25 <<< 1).setWidth 24 = acc <<< 1 := by
    rw [BitVec.setWidth_shiftLeft_of_le (by decide), BitVec.setWidth_setWidth_of_le _ (by decide),
      BitVec.setWidth_eq]
  simp only [crcShift, hout]
  cases acc.msb
  · simp [hlow]
  · simp [hlow, BitVec.setWidth_xor]

theorem crcShift_xor (a b : BitVec 24) : crcShift (a ^^^ b) = crcShift a ^^^ crcShift b := by
  have hgen : ∀ x y : Bool, (if x ^^ y then Config.crcPoly else 0) =
      (if x then Config.crcPoly else 0) ^^^ (if y then Config.crcPoly else 0) := by decide
  simp only [crcShift_eq, BitVec.shiftLeft_xor_distrib, BitVec.msb_xor, hgen, xor_xor_xor_comm]

theorem crcShifts_xor (n : Nat) (a b : BitVec 24) : crcShifts n (a ^^^ b) = crcShifts n a ^^^ crcShifts n b := by
  induction n generalizing a b with
  | zero => rfl
  | succ n ih => simp only [crcShifts, crcShift_xor, ih]

theorem crcByte_xor (a b : BitVec 24) (x y : Byte) : crcByte (a ^^^ b) (x ^^^ y) = crcByte a x ^^^ crcByte b y := by
  rw [crcByte, BitVec.setWidth_xor, BitVec.shiftLeft_xor_distrib, xor_xor_xor_comm, crcShifts_xor, crcByte, crcByte]

theorem crcData_xor (F E : Frame) : crcData (F ^^^ E) = crcData F ^^^ crcData E :=
  List.foldl_hom₂ (List.range 11) (· ^^^ ·) (fun acc m => crcByte acc (frameByte F m))
    (fun acc m => crcByte acc (frameByte E m)) (fun acc m => crcByte acc (frameByte (F ^^^ E) m)) 0 0
    fun a b m => by rw [frameByte_xor, crcByte_xor]

theorem parityField_xor (F E : Frame) : parityField (F ^^^ E) = parityField F ^^^ parityField E := by
  simp only [parityField, frameByte_xor, ← BitVec.xor_append]

theorem crc24_xor (F E : Frame) : crc24 (F ^^^ E) = crc24 F ^^^ crc24 E := by
  rw [crc24, crcData_xor, parityField_xor, xor_xor_xor_comm, crc24, crc24]

theorem crc24_zero : crc24 0 = 0 := by
  have h := crc24_xor 0 0
  rwa [BitVec.xor_self, BitVec.xor_self] at h

/-- The syndrome of a passing frame with an error added is that of the error (R95). -/
theorem crc24_xor_of_pass {F : Frame} (h : crc24 F = 0) (E : Frame) : crc24 (F ^^^ E) = crc24 E := by
  rw [crc24_xor, h]
  exact BitVec.zero_xor

/-- Settles O30: the bits of the list are added to the frame one at a time, each with its own syndrome. -/
theorem crcIsLinear : Obligations.CrcIsLinear := by
  refine ⟨crc24_zero, crc24_xor, fun F I hpass _ => ?_⟩
  rw [← hpass]
  exact (List.foldl_hom crc24 fun G i => (crc24_xor G (unitFrame i)).symm).symm

end Sys2Proof.Proofs
end

section
/-! The single-bit syndromes of R96, and the syndrome of a frame as the sum of those of its set bits (R95, R96). -/

namespace Sys2Proof.Proofs

open Sys2Proof.Machine Sys2Proof.Claims

/-! ## The table -/

theorem crc24_unitFrame {i : Nat} (hi : i < 112) : crc24 (unitFrame i) = syndromeTable.getD i 0 :=
  (by decide +kernel : ∀ i < 112, crc24 (unitFrame i) = syndromeTable.getD i 0) i hi

theorem syndromeTable_length : syndromeTable.length = 112 := rfl

theorem syndromeTable_getElem {i : Nat} (hi : i < syndromeTable.length) :
    syndromeTable[i] = crc24 (unitFrame i) := by
  rw [crc24_unitFrame hi, List.getD_eq_getElem _ _ hi]

theorem syndromeTable_nodup : syndromeTable.Nodup := by decide +kernel

theorem zero_notMem_syndromeTable : (0 : BitVec 24) ∉ syndromeTable := by decide +kernel

theorem mem_syndromeTable_iff {v : BitVec 24} : v ∈ syndromeTable ↔ ∃ i < 112, crc24 (unitFrame i) = v := by
  simp only [List.mem_iff_getElem, syndromeTable_getElem, exists_prop]
  rfl

theorem crc24_unitFrame_mem {i : Nat} (hi : i < 112) : crc24 (unitFrame i) ∈ syndromeTable :=
  mem_syndromeTable_iff.2 ⟨i, hi, rfl⟩

theorem crc24_unitFrame_ne_zero {i : Nat} (hi : i < 112) : crc24 (unitFrame i) ≠ 0 :=
  fun h => zero_notMem_syndromeTable (h ▸ crc24_unitFrame_mem hi)

theorem crc24_unitFrame_inj {i j : Nat} (hi : i < 112) (hj : j < 112) :
    crc24 (unitFrame i) = crc24 (unitFrame j) ↔ i = j := by
  rw [← syndromeTable_length] at hi hj
  rw [← syndromeTable_getElem hi, ← syndromeTable_getElem hj, syndromeTable_nodup.getElem_inj_iff]

/-- Settles O31: the table is computed; the entries of the parity bits are read from it. -/
theorem singleBitSyndromes : Obligations.SingleBitSyndromes := by
  refine ⟨fun i => crc24_unitFrame, syndromeTable_nodup, zero_notMem_syndromeTable, fun i hlow hi => ?_⟩
  have hparity : ∀ k < 24, syndromeTable.getD (88 + k) 0 = BitVec.ofNat 24 (2 ^ (23 - k)) := by decide +kernel
  obtain ⟨k, rfl⟩ := Nat.exists_eq_add_of_le hlow
  rw [crc24_unitFrame hi, hparity k (by omega), show 111 - (88 + k) = 23 - k by omega]

/-! ## A frame is the sum of its set bits -/

theorem unitFrame_eq_twoPow (i : Nat) : unitFrame i = BitVec.twoPow 112 (111 - i) :=
  BitVec.eq_of_toNat_eq (by rw [unitFrame, BitVec.toNat_ofNat, BitVec.toNat_twoPow])

/-- Flipping bit `F{i}` adds the frame `e_i` (R93, R96). -/
theorem flipBit_eq (F : Frame) (i : Nat) : flipBit F i = F ^^^ unitFrame i := by
  rw [flipBit, unitFrame_eq_twoPow, BitVec.twoPow_eq]

theorem getMsbD_unitFrame {i : Nat} (hi : i < 112) (j : Nat) : (unitFrame i).getMsbD j = decide (j = i) := by
  rw [unitFrame_eq_twoPow, BitVec.getMsbD_twoPow]
  simp only [← Bool.decide_and, decide_eq_decide]
  omega

/-- The set bits of a frame among its first `n`, as a sum of unit frames. -/
def sumOfUnits (F : Frame) (n : Nat) : Frame :=
  (List.range n).foldl (fun G i => if F.getMsbD i then G ^^^ unitFrame i else G) 0

theorem sumOfUnits_succ (F : Frame) (n : Nat) :
    sumOfUnits F (n + 1) = if F.getMsbD n then sumOfUnits F n ^^^ unitFrame n else sumOfUnits F n := by
  simp only [sumOfUnits, List.range_succ, List.foldl_append, List.foldl_cons, List.foldl_nil]

theorem getMsbD_sumOfUnits (F : Frame) {n : Nat} (hn : n ≤ 112) (j : Nat) :
    (sumOfUnits F n).getMsbD j = (decide (j < n) && F.getMsbD j) := by
  induction n with
  | zero => simp [sumOfUnits]
  | succ n ih =>
    have ih := ih (by omega)
    rw [sumOfUnits_succ]
    by_cases hj : j = n
    · subst hj
      cases hb : F.getMsbD j <;> simp [ih, hb, getMsbD_unitFrame hn]
    · have hlt : j < n + 1 ↔ j < n := by omega
      cases hb : F.getMsbD n <;> simp [ih, hj, hlt, getMsbD_unitFrame hn]

theorem sumOfUnits_all (F : Frame) : sumOfUnits F 112 = F :=
  BitVec.eq_of_getMsbD_eq fun j hj => by rw [getMsbD_sumOfUnits F le_rfl, decide_eq_true hj, Bool.true_and]

/-- CRC24 carries a sum of unit frames to the sum of their syndromes (R95). -/
theorem crc24_sumOfUnits (F : Frame) (n : Nat) :
    crc24 (sumOfUnits F n) =
      (List.range n).foldl (fun acc i => if F.getMsbD i then acc ^^^ syndromeTable.getD i 0 else acc) 0 := by
  induction n with
  | zero => exact crc24_zero
  | succ n ih =>
    rw [sumOfUnits_succ, List.range_succ, List.foldl_append, ← ih, List.foldl_cons, List.foldl_nil]
    split
    · rw [crc24_xor, crc24_unitFrame (BitVec.lt_of_getMsbD ‹_›)]
    · rfl

/-- Settles O32: a frame is the sum of its unit frames. -/
theorem syndromeIsSumOfTable : Obligations.SyndromeIsSumOfTable := fun F =>
  (congrArg crc24 (sumOfUnits_all F)).symm.trans (crc24_sumOfUnits F 112)

end Sys2Proof.Proofs
end

section
/-! CRC_CHECK and CRC_CORRECT: what their completions write (R92 to R94), and the retry on a frame one bit away from
a passing frame (R96). -/

namespace Sys2Proof.Proofs

open Sys2Proof.Machine Sys2Proof.Claims

section completions
variable {s : State} {p : Pending} (hs : s.cst = .busy p)
include hs

/-- A command with legal operands completes with its own results (R65). -/
theorem completes_with_resultsOf {i : Instr} (hwf : i.wellFormed = true)
    (hsrc : ∀ slot, i = .posToSlot slot → p.snap.msg.kind = .airbornePosition) :
    exec i s = .next (finish (resultsOf i p s)) ∧
      CompletesWriting (writtenRegs i) s (finish (resultsOf i p s)) := by
  obtain ⟨t, hexec, hframe⟩ := commandsCompleteWithFrame i s p hs hwf hsrc
  cases (exec_next hs (operandFault_eq_none hwf hsrc)).symm.trans hexec
  exact ⟨hexec, hframe⟩

theorem crcCheck_completes :
    ∃ t, exec .crcCheck s = .next t ∧ t.cframe = p.snap.frame ∧
      t.crcInfo = ⟨decide (crc24 p.snap.frame = 0), Config.noFlip, crc24 p.snap.frame⟩ ∧
      CompletesWriting crcRegs s t := by
  obtain ⟨hexec, hframe⟩ := completes_with_resultsOf hs (i := .crcCheck) rfl nofun
  exact ⟨_, hexec, rfl, rfl, hframe⟩

theorem crcCorrect_completes {r : CrcFix} (hr : crcFix p.snap.frame = r) :
    ∃ t, exec .crcCorrect s = .next t ∧ t.cframe = r.frame ∧ t.crcInfo = fixInfo r ∧
      CompletesWriting crcRegs s t := by
  obtain ⟨hexec, hframe⟩ := completes_with_resultsOf hs (i := .crcCorrect) rfl nofun
  exact ⟨_, hexec, congrArg CrcFix.frame hr, congrArg fixInfo hr, hframe⟩

end completions

theorem readReg_crcInfo (t : State) : readReg t .crcInfo = crcInfoWord t.crcInfo := rfl

/-- Settles O28: PASS says that the syndrome is 0. -/
theorem crcCheckResult : Obligations.CrcCheckResult := by
  intro s p hs
  obtain ⟨t, hexec, hcframe, hinfo, hframe⟩ := crcCheck_completes hs
  refine ⟨t, hexec, hcframe, ?_, hframe⟩
  have hpass : ∀ b : Bool, BitVec.ofBool b = if b then 1#1 else 0#1 := by decide
  simp only [readReg_crcInfo, hinfo, crcInfoWord, hpass, decide_eq_true_eq, Config.noFlip]

/-- Settles O29: each outcome of the retry is stored as it is. -/
theorem crcCorrectThreeOutcomes : Obligations.CrcCorrectThreeOutcomes := by
  intro s p hs F
  have hcases := crcFix_cases F
  simp only [flipBit_eq] at hcases
  rcases hcases with ⟨hpass, hfix⟩ | ⟨hfail, i, hi, hflip, hleast, hfix⟩ | ⟨hfail, hnone, hfix⟩ <;>
    obtain ⟨t, hexec, hcframe, hinfo, hframe⟩ := crcCorrect_completes hs hfix <;>
    refine ⟨t, hexec, hframe, ?_⟩ <;>
    rw [readReg_crcInfo, hinfo]
  · have hword : crcInfoWord ⟨true, Config.noFlip, 0⟩ = 0xFF000000#32 := by decide
    exact .inl ⟨hpass, hcframe, hword⟩
  · exact .inr (.inl ⟨hfail, i, hi, hflip, hleast, hcframe, rfl⟩)
  · exact .inr (.inr ⟨hfail, hnone, hcframe, rfl⟩)

/-- The retry on a passing frame with one bit inverted: that bit is the only one whose flip passes (R96). -/
theorem crcFix_singleError {F : Frame} {i : Nat} (hF : crc24 F = 0) (hi : i < 112) :
    crcFix (F ^^^ unitFrame i) = ⟨true, BitVec.ofNat 7 i, F, syndromeTable.getD i 0⟩ := by
  have hsyn : crc24 (F ^^^ unitFrame i) = crc24 (unitFrame i) := crc24_xor_of_pass hF _
  have hback : F ^^^ unitFrame i ^^^ unitFrame i = F := by
    rw [BitVec.xor_assoc, BitVec.xor_self, BitVec.xor_zero]
  rcases crcFix_cases (F ^^^ unitFrame i) with ⟨hpass, -⟩ | ⟨-, k, hk, hflip, -, hfix⟩ | ⟨-, hnone, -⟩
  · exact absurd (hsyn.symm.trans hpass) (crc24_unitFrame_ne_zero hi)
  · have hki : i = k := by
      rw [flipBit_eq, crc24_xor, hsyn] at hflip
      exact (crc24_unitFrame_inj hi hk).1 (BitVec.xor_eq_zero_iff.1 hflip)
    subst hki
    rw [hfix, flipBit_eq, hback, hsyn, crc24_unitFrame hi]
  · exact absurd (by rw [flipBit_eq, hback, hF]) (hnone i hi)

/-- Settles O33: the retry flips the inverted bit back. -/
theorem singleErrorsCorrectedBack : Obligations.SingleErrorsCorrectedBack := by
  intro F i s p hF hi hs hframe
  exact crcCorrect_completes hs (by rw [hframe, crcFix_singleError hF hi])

end Sys2Proof.Proofs
end

section
/-! Errors of two and three bits are uncorrectable (R97): no three and no four of the single-bit syndromes sum to 0.
The syndromes are consecutive powers of `x` modulo the generator, so a sum of some of them that is 0 stays 0 when it
is multiplied by `x` until its first bit is bit 0; what remains is to look the sums with bit 0 up in the table. -/

namespace Sys2Proof.Proofs

open Sys2Proof.Machine Sys2Proof.Claims

/-! ## Powers of `x` -/

theorem crcShift_crc24_unitFrame {i : Nat} (hi : i < 111) :
    crcShift (crc24 (unitFrame (i + 1))) = crc24 (unitFrame i) := by
  have htable : ∀ k < 111, crcShift (syndromeTable.getD (k + 1) 0) = syndromeTable.getD k 0 := by decide +kernel
  rw [crc24_unitFrame (by omega), crc24_unitFrame (by omega), htable i hi]

/-- Multiplying by `x^n` moves a bit `n` places towards the front of the frame. -/
theorem crcShifts_crc24_unitFrame {i n : Nat} (h : n + i < 112) :
    crcShifts n (crc24 (unitFrame (n + i))) = crc24 (unitFrame i) := by
  induction n with
  | zero => rw [Nat.zero_add, crcShifts]
  | succ n ih => rw [crcShifts, Nat.succ_add, crcShift_crc24_unitFrame (by omega), ih (by omega)]

theorem crcShifts_crc24_unitFrame_self {i : Nat} (hi : i < 112) :
    crcShifts i (crc24 (unitFrame i)) = crc24 (unitFrame 0) := crcShifts_crc24_unitFrame (i := 0) hi

theorem crcShifts_zero (n : Nat) : crcShifts n 0 = 0 := by
  have h := crcShifts_xor n 0 0
  rwa [BitVec.xor_self, BitVec.xor_self] at h

/-! ## The sums with bit 0 -/

/-- The table of R96 as a search tree. -/
def syndromeTree : Std.TreeSet (BitVec 24) := .ofList syndromeTable

theorem mem_syndromeTree_iff (v : BitVec 24) : v ∈ syndromeTree ↔ v ∈ syndromeTable := by
  rw [syndromeTree, Std.TreeSet.mem_ofList, List.contains_iff_mem]

theorem firstSyndrome_xor_notMem {a : Nat} (h0 : 0 < a) (ha : a < 112) :
    crc24 (unitFrame 0) ^^^ crc24 (unitFrame a) ∉ syndromeTable := by
  have htable : ∀ a < 112, 0 < a → syndromeTable.getD 0 0 ^^^ syndromeTable.getD a 0 ∉ syndromeTree := by
    decide +kernel
  rw [← mem_syndromeTree_iff, crc24_unitFrame (by decide), crc24_unitFrame ha]
  exact htable a ha h0

theorem firstSyndrome_xor_xor_notMem {a b : Nat} (h0 : 0 < a) (hab : a < b) (hb : b < 112) :
    crc24 (unitFrame 0) ^^^ crc24 (unitFrame a) ^^^ crc24 (unitFrame b) ∉ syndromeTable := by
  have htable : ∀ b < 112, ∀ a < b, 0 < a →
      syndromeTable.getD 0 0 ^^^ syndromeTable.getD a 0 ^^^ syndromeTable.getD b 0 ∉ syndromeTree := by
    decide +kernel
  rw [← mem_syndromeTree_iff, crc24_unitFrame (by decide), crc24_unitFrame (hab.trans hb), crc24_unitFrame hb]
  exact htable b hb a hab h0

/-! ## No two, no three and no four sum to 0 -/

theorem sum_two_ne_zero {i j : Nat} (hij : i < j) (hj : j < 112) :
    crc24 (unitFrame i) ^^^ crc24 (unitFrame j) ≠ 0 := fun h =>
  hij.ne ((crc24_unitFrame_inj (hij.trans hj) hj).1 (BitVec.xor_eq_zero_iff.1 h))

theorem sum_three_ne_zero {i j k : Nat} (hij : i < j) (hjk : j < k) (hk : k < 112) :
    crc24 (unitFrame i) ^^^ crc24 (unitFrame j) ^^^ crc24 (unitFrame k) ≠ 0 := by
  obtain ⟨a, rfl⟩ := Nat.exists_eq_add_of_le hij.le
  obtain ⟨b, rfl⟩ := Nat.exists_eq_add_of_le (hij.trans hjk).le
  intro hsum
  have hfront := congrArg (crcShifts i) hsum
  rw [crcShifts_zero, crcShifts_xor, crcShifts_xor, crcShifts_crc24_unitFrame_self (by omega),
    crcShifts_crc24_unitFrame (by omega), crcShifts_crc24_unitFrame hk] at hfront
  refine firstSyndrome_xor_notMem (a := a) (by omega) (by omega) ?_
  rw [BitVec.xor_eq_zero_iff.1 hfront]
  exact crc24_unitFrame_mem (by omega)

theorem sum_four_ne_zero {i j k l : Nat} (hij : i < j) (hjk : j < k) (hkl : k < l) (hl : l < 112) :
    crc24 (unitFrame i) ^^^ crc24 (unitFrame j) ^^^ crc24 (unitFrame k) ^^^ crc24 (unitFrame l) ≠ 0 := by
  obtain ⟨a, rfl⟩ := Nat.exists_eq_add_of_le hij.le
  obtain ⟨b, rfl⟩ := Nat.exists_eq_add_of_le (hij.trans hjk).le
  obtain ⟨c, rfl⟩ := Nat.exists_eq_add_of_le (hij.trans (hjk.trans hkl)).le
  intro hsum
  have hfront := congrArg (crcShifts i) hsum
  rw [crcShifts_zero, crcShifts_xor, crcShifts_xor, crcShifts_xor, crcShifts_crc24_unitFrame_self (by omega),
    crcShifts_crc24_unitFrame (by omega), crcShifts_crc24_unitFrame (by omega),
    crcShifts_crc24_unitFrame hl] at hfront
  refine firstSyndrome_xor_xor_notMem (a := a) (b := b) (by omega) (by omega) (by omega) ?_
  rw [BitVec.xor_eq_zero_iff.1 hfront]
  exact crc24_unitFrame_mem (by omega)

/-! ## The retry finds no bit to flip -/

/-- A summand that comes twice drops out of a sum. -/
theorem eq_zero_of_xor_twice {n : Nat} {a b : BitVec n} (h : a ^^^ b ^^^ a = 0) : b = 0 := by
  rwa [BitVec.xor_comm a b, BitVec.xor_assoc, BitVec.xor_self, BitVec.xor_zero] at h

/-- The syndrome of two errors is no single-bit syndrome, wherever the single bit lies. -/
theorem sum_two_notMem {i j : Nat} (hij : i < j) (hj : j < 112) :
    crc24 (unitFrame i) ^^^ crc24 (unitFrame j) ∉ syndromeTable := by
  rw [mem_syndromeTable_iff]
  rintro ⟨l, hl, hsum⟩
  rw [eq_comm, ← BitVec.xor_eq_zero_iff] at hsum
  have hi := hij.trans hj
  rcases lt_trichotomy l i with hli | rfl | hil
  · exact sum_three_ne_zero hli hij hj (Eq.trans (by ac_rfl) hsum)
  · exact crc24_unitFrame_ne_zero hj (eq_zero_of_xor_twice hsum)
  rcases lt_trichotomy l j with hlj | rfl | hjl
  · exact sum_three_ne_zero hil hlj hj (Eq.trans (by ac_rfl) hsum)
  · exact crc24_unitFrame_ne_zero hi (eq_zero_of_xor_twice (a := crc24 (unitFrame l)) (Eq.trans (by ac_rfl) hsum))
  · exact sum_three_ne_zero hij hjl hl hsum

/-- The syndrome of three errors is no single-bit syndrome, wherever the single bit lies. -/
theorem sum_three_notMem {i j k : Nat} (hij : i < j) (hjk : j < k) (hk : k < 112) :
    crc24 (unitFrame i) ^^^ crc24 (unitFrame j) ^^^ crc24 (unitFrame k) ∉ syndromeTable := by
  rw [mem_syndromeTable_iff]
  rintro ⟨l, hl, hsum⟩
  rw [eq_comm, ← BitVec.xor_eq_zero_iff] at hsum
  have hj := hjk.trans hk
  rcases lt_trichotomy l i with hli | rfl | hil
  · exact sum_four_ne_zero hli hij hjk hk (Eq.trans (by ac_rfl) hsum)
  · exact sum_two_ne_zero hjk hk (eq_zero_of_xor_twice (a := crc24 (unitFrame l)) (Eq.trans (by ac_rfl) hsum))
  rcases lt_trichotomy l j with hlj | rfl | hjl
  · exact sum_four_ne_zero hil hlj hjk hk (Eq.trans (by ac_rfl) hsum)
  · exact sum_two_ne_zero (hij.trans hjk) hk
      (eq_zero_of_xor_twice (a := crc24 (unitFrame l)) (Eq.trans (by ac_rfl) hsum))
  rcases lt_trichotomy l k with hlk | rfl | hkl
  · exact sum_four_ne_zero hij hjl hlk hk (Eq.trans (by ac_rfl) hsum)
  · exact sum_two_ne_zero hij hj (eq_zero_of_xor_twice (a := crc24 (unitFrame l)) (Eq.trans (by ac_rfl) hsum))
  · exact sum_four_ne_zero hij hjk hkl hl hsum

/-- No flip passes a frame whose syndrome is no single-bit syndrome (R93). -/
theorem crcFix_uncorrectable {F : Frame} (hfail : crc24 F ≠ 0) (hsingle : crc24 F ∉ syndromeTable) :
    crcFix F = ⟨false, Config.noFlip, F, crc24 F⟩ := by
  rcases crcFix_cases F with ⟨hpass, -⟩ | ⟨-, i, hi, hflip, -⟩ | ⟨-, -, hfix⟩
  · exact absurd hpass hfail
  · rw [flipBit_eq, crc24_xor] at hflip
    rw [BitVec.xor_eq_zero_iff.1 hflip] at hsingle
    exact absurd (crc24_unitFrame_mem hi) hsingle
  · exact hfix

/-- Settles O34: the syndrome of the error is neither 0 nor in the table, so the frame is uncorrectable. -/
theorem doubleAndTripleErrorsUncorrectable : Obligations.DoubleAndTripleErrorsUncorrectable := by
  intro F E s p hF hs hE hframe
  have herror : crc24 E ≠ 0 ∧ crc24 E ∉ syndromeTable := by
    rcases hE with ⟨i, j, hij, hj, rfl⟩ | ⟨i, j, k, hij, hjk, hk, rfl⟩
    · rw [crc24_xor]
      exact ⟨sum_two_ne_zero hij hj, sum_two_notMem hij hj⟩
    · rw [crc24_xor, crc24_xor]
      exact ⟨sum_three_ne_zero hij hjk hk, sum_three_notMem hij hjk hk⟩
  rw [← crc24_xor_of_pass hF E] at herror
  obtain ⟨hfail, hsingle⟩ := herror
  obtain ⟨t, hexec, hcframe, hinfo, hwritten⟩ :=
    crcCorrect_completes hs ((congrArg crcFix hframe).trans (crcFix_uncorrectable hfail hsingle))
  rw [fixInfo] at hinfo
  exact ⟨t, hexec, hcframe, by rw [hinfo], by rw [hinfo, Config.noFlip], by rwa [hinfo], by rwa [hinfo], hwritten⟩

end Sys2Proof.Proofs
end

section
/-! DECODE (R101 to R109): the record its dispatch makes of a frame, its rejections, what its completion writes, and
its agreement with the decoders DEC_ID, DEC_POS and DEC_VEL. -/

namespace Sys2Proof.Proofs

open Sys2Proof.Machine Sys2Proof.Claims

/-! ## The dispatch -/

theorem dispatch_eq_noMessage_iff (tc : Nat) :
    dispatch tc = .noMessage ↔ tc = 0 ∨ (5 ≤ tc ∧ tc ≤ 8) ∨ 20 ≤ tc := by
  rcases dispatch_cases tc with ⟨h, _, _⟩ | ⟨h, _, _⟩ | ⟨h, _⟩ | ⟨h, _⟩ <;>
    simp only [h, reduceCtorEq, false_iff, true_iff] <;> omega

/-- Of the supported Type Codes the bounds 4 and 18 tell the kinds apart (R106). -/
theorem dispatch_of_ne_noMessage {tc : Nat} (h : dispatch tc ≠ .noMessage) :
    dispatch tc = if tc ≤ 4 then .identification else if tc ≤ 18 then .airbornePosition else .velocity := by
  rcases dispatch_cases tc with ⟨hk, -, hle⟩ | ⟨hk, hge, hle⟩ | ⟨hk, rfl⟩ | ⟨hk, -⟩
  · rw [hk, if_pos hle]
  · rw [hk, if_neg (by omega), if_pos hle]
  · rw [hk]; rfl
  · exact absurd hk h

/-- Steps 3 to 7 of DECODE: the two checks in order, then the message (R104 to R106, R108). -/
theorem dispatchFrame_eq (X : Frame) (ts : DWord) :
    dispatchFrame X ts =
      if downlinkFormat X ≠ 17 then rejectMsg .df
      else if dispatch (typeCode X) = .noMessage then rejectMsg .tc
      else makeMsg (dispatch (typeCode X)) X ts := by
  rw [dispatchFrame, Config.acceptedDf]
  cases dispatch (typeCode X) <;> rfl

theorem dispatchFrame_reason_ne_crc (X : Frame) (ts : DWord) : (dispatchFrame X ts).reason ≠ .crc := by
  rw [dispatchFrame_eq]
  split
  · exact MsgReason.noConfusion
  · split
    · exact MsgReason.noConfusion
    · obtain ⟨-, hreason, -⟩ := makeMsg_header (dispatch (typeCode X)) X ts
      rw [hreason]
      exact MsgReason.noConfusion

/-- A dispatch that does not reject made the message of its kind. -/
theorem dispatchFrame_of_kind {X : Frame} {ts : DWord} {k : MsgKind} (hk : (dispatchFrame X ts).kind = k)
    (hne : k ≠ .noMessage) : dispatchFrame X ts = makeMsg k X ts := by
  rcases dispatchFrame_cases X ts with ⟨r, h⟩ | ⟨kind, -, h⟩ <;> rw [h] at hk
  · exact absurd hk.symm hne
  · obtain ⟨hkind, -⟩ := makeMsg_header kind X ts
    rw [h, hkind.symm.trans hk]

/-! ## The timestamp is the only field NOW enters -/

theorem makeMsg_without_ts (k : MsgKind) (X : Frame) (ts : DWord) :
    { makeMsg k X ts with ts := 0 } = makeMsg k X 0 := by
  cases k <;> rfl

theorem dispatchFrame_without_ts (X : Frame) (ts : DWord) :
    { dispatchFrame X ts with ts := 0 } = dispatchFrame X 0 := by
  rw [dispatchFrame_eq, dispatchFrame_eq]
  split
  · rfl
  · split
    · rfl
    · exact makeMsg_without_ts _ X ts

/-! ## Rejections -/

/-- The registers of a rejection record: those of the reset record but for MSG_KIND (R107, R230). -/
theorem rejected_of_msg {t : State} {r : MsgReason} (h : t.msg = rejectMsg r) : Rejected (reasonNumber r) t := by
  have hreset : ∀ g ∈ msgRegs, readReg State.reset g = 0 := by decide
  refine ⟨?_, fun g hg hne => ?_⟩
  · rw [readReg, h]
    cases r <;> decide
  · have hsame : readReg { State.reset with msg := rejectMsg r } g = readReg State.reset g := by
      cases g with
      | msgKind => exact absurd rfl hne
      | _ => rfl
    exact (readReg_msgRegs h g hg).trans (hsame.trans (hreset g hg))

/-! ## The completion -/

/-- The syndrome CRCFIX hands on is that of the frame it was given (R93). -/
theorem crcFix_syndrome (F : Frame) : (crcFix F).syndrome = crc24 F := by
  rcases crcFix_cases F with ⟨hpass, h⟩ | ⟨-, _, -, -, -, h⟩ | ⟨-, -, h⟩ <;> rw [h]
  exact hpass.symm

theorem crcFix_of_pass {F : Frame} (hF : crc24 F = 0) : crcFix F = ⟨true, Config.noFlip, F, 0⟩ := by
  rcases crcFix_cases F with ⟨-, h⟩ | ⟨hfail, -⟩ | ⟨hfail, -⟩
  · exact h
  · exact absurd hF hfail
  · exact absurd hF hfail

section completion
variable {s : State} {p : Pending} (hs : s.cst = .busy p)
include hs

/-- DECODE of a frame that is not of 112 bits (R102). -/
theorem decode_completes_of_len_ne (hlen : p.snap.frameLen ≠ 112#8) :
    exec .decode s = .next (finish (setMsg (rejectMsg .len) s)) := by
  have hbits : p.snap.frameLen.toNat ≠ Config.frameBits := fun h => hlen (BitVec.eq_of_toNat_eq h)
  rw [exec_next hs rfl, resultsOf, if_pos hbits]

/-- DECODE of a frame of 112 bits, by the outcome of the retry (R103 to R108). -/
theorem decode_completes {r : CrcFix} (hlen : p.snap.frameLen = 112#8) (hr : crcFix p.snap.frame = r) :
    ∃ t, exec .decode s = .next t ∧ t.cframe = r.frame ∧ t.crcInfo = fixInfo r ∧
      t.msg = (if r.pass then dispatchFrame r.frame (timestamp p s) else rejectMsg .crc) ∧
      CompletesWriting (msgRegs ++ crcRegs) s t := by
  have hbits : ¬p.snap.frameLen.toNat ≠ Config.frameBits := by rw [hlen]; decide
  obtain ⟨hexec, hframe⟩ := completes_with_resultsOf hs (i := .decode) rfl nofun
  rw [resultsOf, if_neg hbits, hr] at hexec hframe
  exact ⟨_, hexec, rfl, rfl, rfl, hframe⟩

/-- DECODE of a frame of 112 bits whose retry passes dispatches the corrected frame. -/
theorem decode_completes_of_pass {r : CrcFix} (hlen : p.snap.frameLen = 112#8) (hr : crcFix p.snap.frame = r)
    (hpass : r.pass = true) :
    ∃ t, exec .decode s = .next t ∧ t.cframe = r.frame ∧ t.crcInfo = fixInfo r ∧
      t.msg = dispatchFrame r.frame (timestamp p s) := by
  obtain ⟨t, hexec, hcframe, hinfo, hmsg, -⟩ := decode_completes hs hlen hr
  exact ⟨t, hexec, hcframe, hinfo, by rw [hmsg, if_pos hpass]⟩

/-- A decoder leaves the message of its own kind (R110, R127, R140). -/
theorem decoder_completes {i : Instr} {k : MsgKind}
    (hi : (k = .identification ∧ i = .decId) ∨ (k = .airbornePosition ∧ i = .decPos) ∨
      (k = .velocity ∧ i = .decVel)) :
    ∃ t, exec i s = .next t ∧ t.msg = makeMsg k p.snap.frame (timestamp p s) := by
  obtain ⟨rfl, rfl⟩ | ⟨rfl, rfl⟩ | ⟨rfl, rfl⟩ := hi <;> exact ⟨_, exec_next hs rfl, rfl⟩

end completion

/-- A message DECODE leaves is that of its kind, made from the corrected frame (R108). -/
theorem decode_msg_of_kind {s t : State} {k : MsgKind} (hexec : exec .decode s = .next t) (hk : t.msg.kind = k)
    (hne : k ≠ .noMessage) : ∃ ts, t.msg = makeMsg k t.cframe ts := by
  obtain ⟨p, hs, -⟩ := exec_cases hexec
  by_cases hlen : p.snap.frameLen = 112#8
  · obtain ⟨_, hdecode, hcframe, -, hmsg, -⟩ := decode_completes hs hlen rfl
    cases hdecode.symm.trans hexec
    split at hmsg
    · rw [hmsg] at hk
      exact ⟨_, by rw [hmsg, hcframe, dispatchFrame_of_kind hk hne]⟩
    · exact absurd (hk.symm.trans (congrArg MsgRecord.kind hmsg)) hne
  · cases (decode_completes_of_len_ne hs hlen).symm.trans hexec
    exact absurd hk.symm hne

/-! ## The obligations -/

/-- Settles O35: the length decides first, then the retry, then the two checks of the dispatch. -/
theorem decodeChecksInOrder : Obligations.DecodeChecksInOrder := by
  intro s p hs CF tc
  by_cases hlen : p.snap.frameLen = 112#8
  · obtain ⟨t, hexec, hcframe, hinfo, hmsg, hframe⟩ := decode_completes hs hlen rfl
    refine ⟨t, hexec, ?_⟩
    rw [if_neg (not_not.2 hlen)]
    refine ⟨hframe, hcframe, by rw [hinfo, fixInfo, crcFix_syndrome], ?_⟩
    have hdf : fieldOf CF 0 5 = downlinkFormat CF := (fld_eq_div_mod CF 0 5 (by decide)).symm
    have htc : tc = typeCode CF := (fld_eq_div_mod CF 32 5 (by decide)).symm
    rw [dispatchFrame_eq, timestamp_eq_getD] at hmsg
    rw [hdf, htc]
    simp only [← dispatch_eq_noMessage_iff]
    split
    next hfail => exact rejected_of_msg (hmsg.trans (if_neg (Bool.eq_false_iff.1 hfail)))
    next hpass =>
      rw [if_pos (Bool.eq_true_of_not_eq_false hpass)] at hmsg
      split
      next hne => exact rejected_of_msg (hmsg.trans (if_pos hne))
      next hdf17 =>
        rw [if_neg hdf17] at hmsg
        split
        next hnone => exact rejected_of_msg (hmsg.trans (if_pos hnone))
        next hkind => rw [hmsg, if_neg hkind, dispatch_of_ne_noMessage hkind]
  · refine ⟨_, decode_completes_of_len_ne hs hlen, ?_⟩
    rw [if_pos hlen]
    exact ⟨rejected_of_msg (r := .len) rfl, completesWriting_setMsg _ s⟩

/-- Settles O36: the retry of a passing frame passes, and the dispatch has no rejection for the CRC. -/
theorem passingFrameNeverRejectedForCrc : Obligations.PassingFrameNeverRejectedForCrc := by
  intro s p hs hlen hF
  have hfix : crcFix p.snap.frame = ⟨true, Config.noFlip, p.snap.frame, 0⟩ := crcFix_of_pass hF
  obtain ⟨t, hexec, -, hinfo, hmsg⟩ := decode_completes_of_pass hs hlen hfix rfl
  exact ⟨t, hexec, hmsg ▸ dispatchFrame_reason_ne_crc _ _, by rw [hinfo, fixInfo]⟩

/-- Settles O37: both retries end in the passing frame, which the dispatch turns into one record. -/
theorem decodeUndoesOneFlip : Obligations.DecodeUndoesOneFlip := by
  intro F i s s' p p' hF hi hs hs' hlen hlen' hframe hframe'
  obtain ⟨t, hexec, hcframe, -, hmsg⟩ :=
    decode_completes_of_pass hs hlen ((congrArg crcFix hframe).trans (crcFix_of_pass hF)) rfl
  obtain ⟨t', hexec', hcframe', hinfo', hmsg'⟩ :=
    decode_completes_of_pass hs' hlen' ((congrArg crcFix hframe').trans (crcFix_singleError hF hi)) rfl
  refine ⟨t, t', hexec, hexec', ?_, hcframe, hcframe', hinfo'⟩
  rw [hmsg, hmsg', dispatchFrame_without_ts, dispatchFrame_without_ts]

/-- Settles O38: both records are the message of one kind made from one frame. -/
theorem decodeAgreesWithItsDecoder : Obligations.DecodeAgreesWithItsDecoder := by
  intro s s' t p' i hexec hs' hframe hi
  have hne : t.msg.kind ≠ .noMessage := by
    obtain ⟨hk, -⟩ | ⟨hk, -⟩ | ⟨hk, -⟩ := hi <;> rw [hk] <;> exact MsgKind.noConfusion
  obtain ⟨ts, hmsg⟩ := decode_msg_of_kind hexec rfl hne
  obtain ⟨t', hexec', hmsg'⟩ := decoder_completes hs' hi
  refine ⟨t', hexec', ?_⟩
  rw [hmsg', hframe, makeMsg_without_ts]
  conv_rhs => rw [hmsg, makeMsg_without_ts]

end Sys2Proof.Proofs
end

section
/-! DEC_ID: the category registers and the trimmed name of its record (R110 to R114). -/

namespace Sys2Proof.Proofs

open Sys2Proof.Machine Sys2Proof.Claims

/-! ## The category -/

/-- SET, the category set of a Type Code (R36, R112). -/
def categorySet (tc : Nat) : Nat := if tc = 2 then 1 else if tc = 3 then 2 else if tc = 4 then 3 else 0

theorem categorySet_lt (tc : Nat) : categorySet tc < 4 := by
  unfold categorySet
  split_ifs <;> decide

/-- Each set takes eight categories of the source's list (R112). -/
theorem catOffset_eq_eight_mul (tc : Nat) : catOffset tc = 8 * categorySet tc := by
  unfold catOffset categorySet
  split_ifs <;> omega

/-- SET, CA and CAT by the frame's fields: none is cut by its width (R36, R112). -/
theorem idCatWord_idFields_toNat (X : Frame) :
    (idCatWord (idFields X)).toNat = categorySet (fieldOf X 32 5) * 4096 + fieldOf X 37 3 * 256 +
      (8 * categorySet (fieldOf X 32 5) + fieldOf X 37 3) := by
  have htc : typeCode X = fieldOf X 32 5 := fld_eq_div_mod X 32 5 (by decide)
  have hca : payload X 5 3 = fieldOf X 37 3 := fld_eq_div_mod X 37 3 (by decide)
  have hset := categorySet_lt (fieldOf X 32 5)
  have hlt : fieldOf X 37 3 < 8 := Nat.mod_lt _ (by decide)
  simp only [idCatWord_toNat, idFields, catOffset_eq_eight_mul, htc, hca, BitVec.toNat_ofNat]
  omega

/-! ## The name -/

/-- CHARTAB is the source's table of 64 characters (R113). -/
theorem charTab_toNat {c : Nat} (hc : c < 64) : (charTab c).toNat = nameCode c :=
  (by decide +kernel : ∀ c < 64, (charTab c).toNat = nameCode c) c hc

/-- A character of the name by the six bits of the frame that code it (R111, R113). -/
theorem nameChar_toNat (X : Frame) {i : Nat} (hi : i < 8) :
    (nameChar X i).toNat = nameCode (fieldOf X (40 + 6 * i) 6) := by
  have hcode : payload X (8 + 6 * i) 6 = fieldOf X (40 + 6 * i) 6 := by
    rw [show 40 + 6 * i = 32 + (8 + 6 * i) by omega]
    exact fld_eq_div_mod X _ 6 (by omega)
  rw [nameChar, hcode]
  exact charTab_toNat (Nat.mod_lt _ (by decide))

theorem nameChar_eq_space_iff (X : Frame) {i : Nat} (hi : i < 8) :
    nameChar X i = 0x20#8 ↔ nameCode (fieldOf X (40 + 6 * i) 6) = 0x20 := by
  rw [← nameChar_toNat X hi, ← BitVec.toNat_inj]
  rfl

/-- The lowest byte of a chain of bytes. -/
theorem append_byte_mod {n : Nat} (x : BitVec n) (y : Byte) : (x ++ y).toNat % 256 = y.toNat := by
  rw [toNat_append_eq_add]
  omega

/-- Above the lowest byte stands the chain before it. -/
theorem append_byte_div {n : Nat} (x : BitVec n) (y : Byte) (k : Nat) :
    (x ++ y).toNat / 256 ^ (k + 1) = x.toNat / 256 ^ k := by
  rw [Nat.pow_succ', ← Nat.div_div_eq_div_mul, toNat_append_eq_add]
  congr 1
  omega

/-- Byte `i` of the pair is the name's byte `i` (R37). -/
theorem nameBits_byte (X : Frame) (len : Nat) {i : Nat} (hi : i < 8) :
    (nameBits X len).toNat / 256 ^ i % 256 = (nameByte X len i).toNat := by
  unfold nameBits
  interval_cases i <;> simp only [append_byte_div, append_byte_mod, Nat.pow_zero, Nat.div_one]
  exact Nat.mod_eq_of_lt (nameByte X len 7).isLt

/-- A byte of the name: the table's character below the length, 0 from it on (R111, R113). -/
theorem nameByte_toNat (X : Frame) (len : Nat) {i : Nat} (hi : i < 8) :
    (nameByte X len i).toNat = if i < len then nameCode (fieldOf X (40 + 6 * i) 6) else 0 := by
  rw [nameByte, apply_ite BitVec.toNat, nameChar_toNat X hi]
  rfl

/-! ## The obligation -/

/-- Settles O40: the record is `ID_FIELDS` of the latched frame, whose name is cut at its trimmed length. -/
theorem decIdFields : Obligations.DecIdFields := by
  intro s p hs X tc set ch
  obtain ⟨hexec, hframe⟩ := completes_with_resultsOf hs (i := .decId) rfl nofun
  obtain ⟨hle, hlast, hspaces⟩ := trimmedLen_spec (nameChar X) 8
  refine ⟨_, hexec, hframe, idCatWord_idFields_toNat X, trimmedLen (nameChar X) 8, hle, ?_, fun hpos => ?_,
    fun i hlen hi => (nameChar_eq_space_iff X hi).1 (hspaces i hlen hi), fun i hi => ?_⟩
  · change (idNameLenWord (idFields X)).toNat = _
    rw [idNameLenWord, toNat_zero_append, idFields, BitVec.toNat_ofNat, Nat.mod_eq_of_lt (by omega)]
  · exact mt (nameChar_eq_space_iff X (by omega)).2 (hlast hpos)
  · change (hiHalf (idFields X).name ++ loHalf (idFields X).name).toNat / 256 ^ i % 256 = _
    rw [hiHalf_append_loHalf, idFields, nameBits_byte X _ hi, nameByte_toNat X _ hi]

end Sys2Proof.Proofs
end

section
/-! GRAY3 and ALT12: the Gray groups of an altitude field as numbers, the altitude of each path, and the registers
the two commands leave (R120 to R126). -/

namespace Sys2Proof.Proofs

open Sys2Proof.Machine Sys2Proof.Claims

/-! ## Gray code -/

/-- `GRAY3F` by shifts (R122). -/
theorem grayToBinary_toNat : ∀ g : BitVec 3, (grayToBinary g).toNat = grayValue g.toNat := by decide

/-- Settles O41: RES0 is the binary value, zero-extended. -/
theorem gray3Table : Obligations.Gray3Table := by
  intro s p g hs
  obtain ⟨hexec, hframe⟩ := completes_with_resultsOf hs (i := .gray3 g) rfl nofun
  refine ⟨_, hexec, ?_, rfl, hframe⟩
  have htable : ∀ g : BitVec 3, grayValue g.toNat = [0, 1, 3, 2, 7, 6, 4, 5].getD g.toNat 0 := by decide
  change ((grayToBinary g).setWidth 32).toNat = _
  rw [BitVec.toNat_setWidth_of_le (by decide), grayToBinary_toNat, htable]

/-! ## The groups of an altitude field -/

theorem altBit_lt (a i : Nat) : altBit a i < 2 := Nat.mod_lt _ two_pos

/-- Bit `a[i]` of an altitude field as a number (R123). -/
theorem getLsbD_toNat_eq_altBit (a : BitVec 12) (i : Nat) : (a.getLsbD i).toNat = altBit a.toNat i :=
  Nat.toNat_testBit a.toNat i

/-- The Q-bit as the model tests it (R123). -/
theorem getLsbD_eq_true_iff_altBit (a : BitVec 12) (i : Nat) : a.getLsbD i = true ↔ altBit a.toNat i = 1 := by
  rw [← getLsbD_toNat_eq_altBit, toNat_eq_one_iff]

/-- A group of three bits, the first the most significant (R125). -/
theorem grayGroup_eq (a : BitVec 12) (i j k : Nat) :
    grayGroup a i j k = grayValue (4 * altBit a.toNat i + 2 * altBit a.toNat j + altBit a.toNat k) := by
  rw [grayGroup, grayToBinary_toNat]
  congr 1
  simp only [toNat_append_eq_add, BitVec.toNat_ofBool, getLsbD_toNat_eq_altBit]
  omega

theorem grayGroupD_eq (a : BitVec 12) :
    grayGroupD a = grayValue (2 * altBit a.toNat 11 + altBit a.toNat 9) := by
  rw [grayGroupD, grayToBinary_toNat]
  congr 1
  simp only [toNat_append_eq_add, BitVec.toNat_ofBool, BitVec.toNat_ofNat, getLsbD_toNat_eq_altBit]
  omega

theorem group500_eq (a : BitVec 12) : group500 a = n500Of a.toNat := by
  rw [group500, grayGroupD_eq, grayGroup_eq, grayGroup_eq, n500Of]
  omega

theorem group100_eq (a : BitVec 12) : group100 a = n100Of a.toNat := grayGroup_eq a 5 2 0

/-- The value of a group takes no more bits than the group (R122). -/
theorem grayValue_lt {g n : Nat} (h : g < 2 ^ n) : grayValue g < 2 ^ n :=
  Nat.xor_lt_two_pow (Nat.xor_lt_two_pow h ((Nat.div_le_self _ _).trans_lt h)) ((Nat.div_le_self _ _).trans_lt h)

theorem threeBitGroup_lt (a i j k : Nat) : grayValue (4 * altBit a i + 2 * altBit a j + altBit a k) < 8 := by
  have hi := altBit_lt a i
  have hj := altBit_lt a j
  have hk := altBit_lt a k
  exact grayValue_lt (n := 3) (by omega)

theorem twoBitGroup_lt (a i j : Nat) : grayValue (2 * altBit a i + altBit a j) < 4 := by
  have hi := altBit_lt a i
  have hj := altBit_lt a j
  exact grayValue_lt (n := 2) (by omega)

theorem n100Of_lt (a : Nat) : n100Of a < 8 := threeBitGroup_lt a 5 2 0

theorem n500Of_lt (a : Nat) : n500Of a < 256 := by
  have hd := twoBitGroup_lt a 11 9
  have ha := threeBitGroup_lt a 6 3 1
  have hb := threeBitGroup_lt a 10 8 7
  rw [n500Of]
  omega

/-! ## The altitude -/

theorem altDecode_of_qbit_set {a : BitVec 12} (hq : altBit a.toNat 4 = 1) :
    altDecode a = (((count25 a).toNat : Int) * 25 - 1000,
      { AltInfo.zero with path := .ft25, q := 1#1, n25 := count25 a }) :=
  if_pos ((getLsbD_eq_true_iff_altBit a 4).2 hq)

theorem altDecode_of_qbit_clear {a : BitVec 12} (hq : altBit a.toNat 4 = 0) : altDecode a = gillham a :=
  if_neg fun h => absurd ((getLsbD_eq_true_iff_altBit a 4).1 h) (by omega)

/-- The count `N`: the field without its bit 4 (R123). -/
theorem count25_toNat (a : BitVec 12) : (count25 a).toNat = a.toNat / 32 * 16 + a.toNat % 16 := by
  have := a.isLt
  simp only [count25, toNat_append_eq_add, BitVec.extractLsb'_toNat, Nat.shiftRight_eq_div_pow]
  omega

/-- T at the valid codes of the 100 ft group (R126). -/
theorem gillhamOffset_eq_getD {n : Nat} (h0 : n ≠ 0) (h7 : n < 7) :
    gillhamOffset n = [0, 0, 100, 200, 300, -200, -100].getD n 0 :=
  (by decide : ∀ n < 7, n ≠ 0 → gillhamOffset n = [0, 0, 100, 200, 300, -200, -100].getD n 0) n h7 h0

/-- The Gillham altitude is a multiple of 100 from -1,400 to 126,600 (R126). -/
theorem gillhamAltitude_range {n5 : Nat} (h5 : n5 < 256) (n1 : Nat) :
    -1400 ≤ (n5 : Int) * 500 - 1200 + gillhamOffset n1 ∧ (n5 : Int) * 500 - 1200 + gillhamOffset n1 ≤ 126600 ∧
      ((n5 : Int) * 500 - 1200 + gillhamOffset n1) % 100 = 0 := by
  unfold gillhamOffset
  split_ifs <;> omega

/-- An altitude in the range of either encoding is a register's signed value (R123, R126). -/
theorem toInt_ofInt_altitude {x : Int} (hlo : -1400 ≤ x) (hhi : x ≤ 126600) : (BitVec.ofInt 32 x).toInt = x :=
  BitVec.toInt_ofInt_eq_self (by decide) (by omega) (by omega)

/-- RES1 of the Gillham path: PATH and the groups, neither cut by its width (R124). -/
theorem altInfoWord_groups_toNat (path : AltPath) {n5 n1 : Nat} (h5 : n5 < 256) (h1 : n1 < 8) :
    (altInfoWord { AltInfo.zero with path := path, n500 := BitVec.ofNat 8 n5, n100 := BitVec.ofNat 3 n1 }).toNat =
      n1 * 2 ^ 16 + n5 * 256 + pathNumber path := by
  rw [altInfoWord_toNat]
  simp only [AltInfo.zero, BitVec.ofNat_eq_ofNat, BitVec.toNat_ofNat]
  omega

/-! ## The obligations -/

/-- ALT12 leaves the altitude in RES0 and what it was made from in RES1 (R121, R124). -/
theorem alt12_completes {s : State} {p : Pending} (hs : s.cst = .busy p) (a : BitVec 12) :
    ∃ t, exec (.alt12 a) s = .next t ∧ readReg t .res0 = BitVec.ofInt 32 (altDecode a).1 ∧
      readReg t .res1 = altInfoWord (altDecode a).2 ∧ CompletesWriting resRegs s t := by
  obtain ⟨hexec, hframe⟩ := completes_with_resultsOf hs (i := .alt12 a) rfl nofun
  exact ⟨_, hexec, rfl, rfl, hframe⟩

/-- Settles O42: the altitude is in the range of a register for every count. -/
theorem alt12BinaryPath : Obligations.Alt12BinaryPath := by
  intro s p a hs hq N
  obtain ⟨t, hexec, hres0, hres1, hframe⟩ := alt12_completes hs a
  have ha := a.isLt
  rw [altDecode_of_qbit_set hq, count25_toNat] at hres0
  rw [altDecode_of_qbit_set hq] at hres1
  refine ⟨t, hexec, ?_, ?_, hframe⟩
  · rw [hres0, toInt_ofInt_altitude (by omega) (by omega)]
  · rw [hres1, altInfoWord_toNat, count25_toNat]
    simp only [AltInfo.zero, BitVec.ofNat_eq_ofNat, BitVec.toNat_ofNat, pathNumber]
    omega

/-- Settles O43: the three outcomes of `GILLHAM`, with the groups as numbers. -/
theorem alt12GillhamPath : Obligations.Alt12GillhamPath := by
  intro s p a hs hq n5 n1
  obtain ⟨t, hexec, hres0, hres1, hframe⟩ := alt12_completes hs a
  refine ⟨t, hexec, hframe, ?_⟩
  have h5 : n5 < 256 := n500Of_lt a.toNat
  have h1 : n1 < 8 := n100Of_lt a.toNat
  have hinfo := fun path => altInfoWord_groups_toNat path h5 h1
  rw [altDecode_of_qbit_clear hq, gillham, group500_eq, group100_eq] at hres0 hres1
  split_ifs at hres0 hres1 ⊢ with hzero hinvalid
  · exact ⟨hres0, congrArg BitVec.toNat hres1⟩
  · exact ⟨hres0, (congrArg BitVec.toNat hres1).trans (hinfo .gillhamInvalid)⟩
  · obtain ⟨hlo, hhi, hmul⟩ := gillhamAltitude_range h5 n1
    have halt := (congrArg BitVec.toInt hres0).trans (toInt_ofInt_altitude hlo hhi)
    rw [← gillhamOffset_eq_getD (by omega) (by omega), halt]
    exact ⟨rfl, (congrArg BitVec.toNat hres1).trans (hinfo .gillham), hlo, hhi, hmul⟩

end Sys2Proof.Proofs
end

section
/-! DEC_POS: each position field at its payload offset, and the altitude of the raw field (R127, R128). -/

namespace Sys2Proof.Proofs

open Sys2Proof.Machine Sys2Proof.Claims

/-- `P{p}` as a field of one bit (R12). -/
theorem payloadBit_toNat (X : Frame) {p : Nat} (hp : 32 + p < 112) :
    (payloadBit X p).toNat = fieldOf X (32 + p) 1 := by
  rw [payloadBit, BitVec.toNat_ofBool, frameBit_toNat X hp, fieldOf, Nat.pow_one]
  congr 3
  omega

/-- F, T, NICSB and SS by the frame's fields (R38, R128). -/
theorem posFlagsWord_posFields_toNat (X : Frame) :
    (posFlagsWord (posFields X)).toNat =
      fieldOf X 53 1 * 4096 + fieldOf X 52 1 * 256 + fieldOf X 39 1 * 16 + fieldOf X 37 2 := by
  have hss : (BitVec.ofNat 2 (payload X 5 2)).toNat = fieldOf X 37 2 := toNat_ofNat_fld (by decide)
  have hnicsb : (payloadBit X 7).toNat = fieldOf X 39 1 := payloadBit_toNat X (by decide)
  have ht : (payloadBit X 20).toNat = fieldOf X 52 1 := payloadBit_toNat X (by decide)
  have hf : (payloadBit X 21).toNat = fieldOf X 53 1 := payloadBit_toNat X (by decide)
  simp only [posFlagsWord_toNat, posFields, hss, hnicsb, ht, hf, Nat.mul_comm]

/-- Settles O44: the record is `POS_FIELDS` of the latched frame, whose altitude is `ALTDEC` of the raw field. -/
theorem decPosFields : Obligations.DecPosFields := by
  intro s s' t' p p' hs hs' X halt
  obtain ⟨hexec, hframe⟩ := completes_with_resultsOf hs (i := .decPos) rfl nofun
  obtain ⟨u, hu, hres0, hres1, -⟩ := alt12_completes hs' (BitVec.ofNat 12 (fieldOf X 40 12))
  cases hu.symm.trans halt
  have hraw : payload X 8 12 = fieldOf X 40 12 := fld_eq_div_mod X 40 12 (by decide)
  rw [← hraw] at hres0 hres1
  refine ⟨_, hexec, hframe, posFlagsWord_posFields_toNat X, ?_, ?_, ?_, hres0.symm, hres1.symm⟩
  · exact (toNat_zero_append _).trans (toNat_ofNat_fld (by decide))
  · exact (toNat_zero_append _).trans (toNat_ofNat_fld (by decide))
  · exact (toNat_zero_append _).trans (toNat_ofNat_fld (by decide))

end Sys2Proof.Proofs
end

section
/-! The correctly rounded root of a natural number (R15, R143): the integer root of the number scaled by a power of
four, rounded to the nearer neighbour. -/

namespace Sys2Proof.Proofs

open Sys2Proof.Machine Sys2Proof.Claims

/-! ## The integer root -/

/-- The bit by bit search finds the integer root once it brackets it. -/
theorem isqrtBits_eq_sqrt {n : Nat} (k acc : Nat) (hlo : acc * acc ≤ n) (hhi : n < (acc + 2 ^ k) * (acc + 2 ^ k)) :
    isqrtBits n k acc = n.sqrt := by
  induction k generalizing acc with
  | zero => exact Nat.eq_sqrt.2 ⟨hlo, hhi⟩
  | succ k ih =>
    have hdouble : acc + 2 ^ (k + 1) = acc + 2 ^ k + 2 ^ k := by rw [Nat.pow_succ]; omega
    rw [hdouble] at hhi
    simp only [isqrtBits]
    split
    next h => exact ih _ h hhi
    next h => exact ih _ hlo (not_le.1 h)

/-- The integer nearest to the real root of `x`. -/
def nearestRoot (x : Nat) : Nat := if x.sqrt * x.sqrt + x.sqrt + 1 ≤ x then x.sqrt + 1 else x.sqrt

/-- There is no tie: the square of a half-integer is no integer. -/
theorem nearestRoot_near (x : Nat) : |(nearestRoot x : ℝ) - √x| < 1 / 2 := by
  have hlo : (x.sqrt : ℝ) ≤ √x := Real.le_sqrt_of_sq_le (by exact_mod_cast Nat.sqrt_le' x)
  have hhi : √(x : ℝ) < x.sqrt + 1 :=
    (Real.sqrt_lt' (by positivity)).2 (by exact_mod_cast Nat.lt_succ_sqrt' x)
  unfold nearestRoot
  split
  next h =>
    have h' : (x.sqrt : ℝ) * x.sqrt + x.sqrt + 1 ≤ x := by exact_mod_cast h
    have : (x.sqrt : ℝ) + 1 / 2 < √x := Real.lt_sqrt_of_sq_lt (by linarith)
    rw [abs_lt]
    push_cast
    constructor <;> linarith
  next h =>
    have h' : (x : ℝ) ≤ x.sqrt * x.sqrt + x.sqrt := by exact_mod_cast (by omega : x ≤ x.sqrt * x.sqrt + x.sqrt)
    have : √(x : ℝ) < x.sqrt + 1 / 2 := (Real.sqrt_lt' (by positivity)).2 (by linarith)
    rw [abs_lt]
    constructor <;> linarith

/-! ## The scaled number -/

/-- The binary places the root of `n` is computed to. -/
def rootScale (n : Nat) : Nat := 52 - n.log2 / 2

theorem rootScale_le (n : Nat) : rootScale n ≤ 52 := Nat.sub_le _ _

section scaled
variable {n : Nat} (hn : 0 < n) (hlt : n < 2 ^ 53)
include hn hlt

/-- The scaled number has a root of 53 bits. -/
theorem scaled_bounds : 2 ^ 104 ≤ n * 4 ^ rootScale n ∧ n * 4 ^ rootScale n < 2 ^ 106 := by
  have hlog : n.log2 < 53 := (Nat.log2_lt hn.ne').2 hlt
  have hlo := Nat.log2_self_le hn.ne'
  have hhi : n < 2 ^ (n.log2 + 1) := Nat.lt_log2_self
  have hfour : 4 ^ rootScale n = 2 ^ (2 * rootScale n) := (pow_mul 2 2 _).symm
  rw [hfour]
  unfold rootScale
  constructor
  · calc 2 ^ 104 ≤ 2 ^ (n.log2 + 2 * (52 - n.log2 / 2)) := Nat.pow_le_pow_right two_pos (by omega)
      _ = 2 ^ n.log2 * 2 ^ (2 * (52 - n.log2 / 2)) := pow_add _ _ _
      _ ≤ _ := Nat.mul_le_mul_right _ hlo
  · calc n * 2 ^ (2 * (52 - n.log2 / 2)) < 2 ^ (n.log2 + 1) * 2 ^ (2 * (52 - n.log2 / 2)) :=
          Nat.mul_lt_mul_of_pos_right hhi (Nat.two_pow_pos _)
      _ = 2 ^ (n.log2 + 1 + 2 * (52 - n.log2 / 2)) := (pow_add _ _ _).symm
      _ ≤ 2 ^ 106 := Nat.pow_le_pow_right two_pos (by omega)

theorem scaledRoot_bounds : 2 ^ 52 ≤ (n * 4 ^ rootScale n).sqrt ∧ (n * 4 ^ rootScale n).sqrt < 2 ^ 53 := by
  obtain ⟨hlo, hhi⟩ := scaled_bounds hn hlt
  exact ⟨Nat.le_sqrt.2 hlo, Nat.sqrt_lt.2 hhi⟩

theorem sqrtNat_eq :
    sqrtNat n =
      if nearestRoot (n * 4 ^ rootScale n) = 2 ^ 53 then .fin false (2 ^ 52) (1 - (rootScale n : Int))
      else .fin false (nearestRoot (n * 4 ^ rootScale n)) (-(rootScale n : Int)) := by
  obtain ⟨-, hhi⟩ := scaled_bounds hn hlt
  have hroot : isqrtBits (n * 4 ^ rootScale n) 53 0 = (n * 4 ^ rootScale n).sqrt :=
    isqrtBits_eq_sqrt 53 0 (Nat.zero_le _) (by rwa [Nat.zero_add])
  unfold rootScale at hroot
  simp only [sqrtNat, if_neg hn.ne', hroot]
  rfl

/-- The root is a representable rounding of the real root (R15, R143). -/
theorem sqrtNat_represents :
    Represents (sqrtNat n) (nearestRoot (n * 4 ^ rootScale n) : Nat) (-(rootScale n : Int)) := by
  have hscale := rootScale_le n
  rw [sqrtNat_eq hn hlt]
  split
  next hcarry =>
    rw [hcarry, sub_eq_neg_add]
    simpa using represents_carry false (e := -(rootScale n : Int)) (by omega) (by omega)
  next hne =>
    obtain ⟨hlo, hhi⟩ := scaledRoot_bounds hn hlt
    have hbounds : 2 ^ 52 ≤ nearestRoot (n * 4 ^ rootScale n) ∧ nearestRoot (n * 4 ^ rootScale n) ≤ 2 ^ 53 := by
      unfold nearestRoot
      split <;> omega
    simpa using represents_fin false (m := nearestRoot (n * 4 ^ rootScale n)) (e := -(rootScale n : Int))
      (.inr ⟨hbounds.1, by omega, by omega, by omega⟩)

theorem sqrtNat_roundsTo :
    RoundsTo (√(n : ℝ)) (nearestRoot (n * 4 ^ rootScale n) : Nat) (-(rootScale n : Int)) := by
  have hscale := rootScale_le n
  have hpow : (0 : ℝ) < 2 ^ (-(rootScale n : Int)) := by positivity
  have hroot : √(n : ℝ) = √((n * 4 ^ rootScale n : Nat) : ℝ) * 2 ^ (-(rootScale n : Int)) := by
    have hfour : √((4 : ℝ) ^ rootScale n) = 2 ^ rootScale n := by
      rw [show (4 : ℝ) = 2 ^ 2 by norm_num, pow_right_comm, Real.sqrt_sq (by positivity)]
    rw [Nat.cast_mul, Real.sqrt_mul (Nat.cast_nonneg n), Nat.cast_pow, Nat.cast_ofNat, hfour, zpow_neg,
      zpow_natCast, mul_assoc, mul_inv_cancel₀ (by positivity), mul_one]
  have hnear : |(((nearestRoot (n * 4 ^ rootScale n) : Nat) : Int) : ℝ) * 2 ^ (-(rootScale n : Int)) - √(n : ℝ)| <
      2 ^ (-(rootScale n : Int)) / 2 := by
    rw [hroot, ← sub_mul, abs_mul, abs_of_pos hpow, Int.cast_natCast]
    linarith [mul_lt_mul_of_pos_right (nearestRoot_near (n * 4 ^ rootScale n)) hpow]
  refine ⟨by omega, fun _ => ?_, hnear.le, fun htie => absurd htie hnear.ne⟩
  have hlo : (2 : ℝ) ^ 52 ≤ √((n * 4 ^ rootScale n : Nat) : ℝ) :=
    Real.le_sqrt_of_sq_le (by exact_mod_cast (scaled_bounds hn hlt).1)
  rw [abs_of_nonneg (Real.sqrt_nonneg _), hroot]
  exact mul_le_mul_of_nonneg_right hlo hpow.le

end scaled

/-! ## Nearest values -/

theorem isBinary64_of_nearestTo {x : F64} {r : ℝ} (h : NearestTo x r) : IsBinary64 x := by
  obtain ⟨hfin, hpattern, -⟩ := h
  exact ⟨hfin, hpattern⟩

/-- Every other value is at least as far from the exact one, so a value beyond it is at least the rounded one. -/
theorem value_le_of_nearestTo {x : F64} {r : ℝ} (h : NearestTo x r) {y : F64} (hy : IsBinary64 y)
    (hr : r ≤ (value y : ℚ)) : value x ≤ value y := by
  obtain ⟨-, -, hnear⟩ := h
  obtain ⟨hfin, b, rfl⟩ := hy
  have hdist := hnear b hfin
  rw [abs_of_nonneg (sub_nonneg.2 hr)] at hdist
  have := (le_abs_self _).trans hdist
  exact_mod_cast (by linarith : ((value x : ℚ) : ℝ) ≤ (value (ofBits b) : ℚ))

theorem le_value_of_nearestTo {x : F64} {r : ℝ} (h : NearestTo x r) {y : F64} (hy : IsBinary64 y)
    (hr : (value y : ℚ) ≤ r) : value y ≤ value x := by
  obtain ⟨-, -, hnear⟩ := h
  obtain ⟨hfin, b, rfl⟩ := hy
  have hdist := hnear b hfin
  rw [abs_of_nonpos (sub_nonpos.2 hr)] at hdist
  have := (neg_le_abs _).trans hdist
  exact_mod_cast (by linarith : ((value (ofBits b) : ℚ) : ℝ) ≤ (value x : ℚ))

/-- `+0.0`. -/
theorem represents_zero : Represents (.fin false 0 (-1074)) 0 (-1074) := by
  simpa using represents_fin false (m := 0) (.inl ⟨by norm_num, rfl⟩)

theorem value_zero : value (.fin false 0 (-1074)) = 0 := by
  rw [value_fin_rat]
  simp

/-- The root of a natural number of at most 53 bits is the nearest value to the real root (R15, R143). -/
theorem sqrtNat_nearestTo {n : Nat} (hlt : n < 2 ^ 53) : NearestTo (sqrtNat n) √(n : ℝ) := by
  rcases Nat.eq_zero_or_pos n with rfl | hn
  · refine ⟨represents_zero.finite, represents_zero.pattern, fun b _ => ?_⟩
    rw [show sqrtNat 0 = .fin false 0 (-1074) from rfl, value_zero]
    simp
  · exact (sqrtNat_roundsTo hn hlt).nearestTo (sqrtNat_represents hn hlt)

/-! ## The speed -/

theorem sumOfSquares_le {ew ns : Int} (hew : |ew| ≤ 1022) (hns : |ns| ≤ 1022) :
    ew * ew + ns * ns ≤ 2088968 := by
  have hew' := mul_self_le_mul_self (abs_nonneg ew) hew
  have hns' := mul_self_le_mul_self (abs_nonneg ns) hns
  rw [abs_mul_abs_self] at hew' hns'
  omega

/-- The speed is a nearest value to the norm as long as the sum of squares is exact (R143). -/
theorem speedF_nearestTo {ew ns : Int} (h : ew * ew + ns * ns < 2 ^ 53) :
    NearestTo (speedF ew ns) √((ew : ℝ) ^ 2 + (ns : ℝ) ^ 2) := by
  have hnonneg : 0 ≤ ew * ew + ns * ns := add_nonneg (mul_self_nonneg ew) (mul_self_nonneg ns)
  have hsum : (((ew * ew + ns * ns).toNat : Nat) : ℝ) = (ew : ℝ) ^ 2 + (ns : ℝ) ^ 2 := by
    rw [← Int.cast_natCast, Int.toNat_of_nonneg hnonneg]
    push_cast
    ring
  rw [← hsum]
  exact sqrtNat_nearestTo (by omega)

/-- The bound of R143 has a pattern and is not below the norm of the greatest components. -/
theorem speedBound_isBinary64 : IsBinary64 (ofBits 0x4096954E174BFC2F#64) :=
  isBinary64_ofBits (by decide)

theorem sqrt_le_speedBound : √(2088968 : ℝ) ≤ (value (ofBits 0x4096954E174BFC2F#64) : ℚ) := by
  have hpattern : ofBits 0x4096954E174BFC2F#64 = .fin false 6356612118477871 (-42) := by decide
  rw [hpattern, value_fin]
  exact Real.sqrt_le_iff.2 (by norm_num)

/-- Settles O47: the integer root of the scaled sum rounds the norm, and both bounds are binary64 values. -/
theorem speedCorrectlyRounded : Obligations.SpeedCorrectlyRounded := by
  intro ew ns hew hns
  have hsum := sumOfSquares_le hew hns
  have hnear := speedF_nearestTo (hsum.trans_lt (by norm_num))
  refine ⟨hsum, hnear, ?_, ?_, value_le_of_nearestTo hnear speedBound_isBinary64 ?_⟩
  · rintro rfl rfl
    rfl
  · have hzero := le_value_of_nearestTo hnear represents_zero.isBinary64
      (by rw [value_zero, Rat.cast_zero]; exact Real.sqrt_nonneg _)
    rwa [value_zero] at hzero
  · refine le_trans (Real.sqrt_le_sqrt ?_) sqrt_le_speedBound
    rw [sq, sq]
    exact_mod_cast hsum

end Sys2Proof.Proofs
end

section
/-! The rational enclosures of the heading (R144, log 14): each one holds its exact angle, and where its ends lie. -/

namespace Sys2Proof.Proofs

open Sys2Proof.Machine Sys2Proof.Claims

/-- The real `r` lies between the two ends. -/
structure Encloses (e : Enclosure) (r : ℝ) : Prop where
  lo_le : (e.lo : ℝ) ≤ r
  le_hi : r ≤ (e.hi : ℝ)

/-- Both ends lie between `a` and `b`; the order of the ends is not asked for. -/
structure Within (e : Enclosure) (a b : ℚ) : Prop where
  le_lo : a ≤ e.lo
  hi_le : e.hi ≤ b

section combinators
variable {e : Enclosure} (c : ℚ)

theorem Encloses.subFrom {r : ℝ} (h : Encloses e r) : Encloses (subFrom c e) (c - r) where
  lo_le := by rw [Machine.subFrom, Rat.cast_sub]; exact sub_le_sub_left h.le_hi _
  le_hi := by rw [Machine.subFrom, Rat.cast_sub]; exact sub_le_sub_left h.lo_le _

theorem Encloses.addTo {r : ℝ} (h : Encloses e r) : Encloses (addTo c e) (c + r) where
  lo_le := by rw [Machine.addTo, Rat.cast_add]; exact add_le_add_right h.lo_le _
  le_hi := by rw [Machine.addTo, Rat.cast_add]; exact add_le_add_right h.le_hi _

theorem Within.subFrom {a b : ℚ} (h : Within e a b) : Within (subFrom c e) (c - b) (c - a) :=
  ⟨sub_le_sub_left h.hi_le c, sub_le_sub_left h.le_lo c⟩

theorem Within.addTo {a b : ℚ} (h : Within e a b) : Within (addTo c e) (c + a) (c + b) :=
  ⟨add_le_add_right h.le_lo c, add_le_add_right h.hi_le c⟩

end combinators

theorem Within.mono {e : Enclosure} {a b a' b' : ℚ} (h : Within e a b) (ha : a' ≤ a) (hb : b ≤ b') :
    Within e a' b' :=
  ⟨ha.trans h.le_lo, h.hi_le.trans hb⟩

/-! ## The arctangent -/

/-- The magnitude of term `n` of the arctangent series. -/
def arctanTerm (t : ℚ) (n : ℕ) : ℚ := t ^ (2 * n + 1) / ((2 * n + 1 : ℕ) : ℚ)

theorem atanSum_eq_sum (t : ℚ) (n : ℕ) : atanSum t n = ∑ i ∈ Finset.range n, (-1) ^ i * arctanTerm t i := by
  induction n with
  | zero => rfl
  | succ n ih => rw [Finset.sum_range_succ, ← ih, atanSum, arctanTerm, mul_div_assoc]

theorem atanSum_succ_succ (t : ℚ) (n : ℕ) :
    atanSum t (n + 2) = atanSum t n + (-1) ^ n * (arctanTerm t n - arctanTerm t (n + 1)) := by
  simp only [atanSum_eq_sum, Finset.sum_range_succ]
  ring

section unit
variable {t : ℚ} (h0 : 0 ≤ t)
include h0

theorem arctanTerm_antitone (h1 : t ≤ 1) : Antitone (arctanTerm t) := by
  intro m n hmn
  have hpow : t ^ (2 * n + 1) ≤ t ^ (2 * m + 1) := pow_le_pow_of_le_one h0 h1 (by omega)
  exact div_le_div₀ (pow_nonneg h0 _) hpow (by positivity) (by exact_mod_cast (by omega : 2 * m + 1 ≤ 2 * n + 1))

/-- An even number of terms is below the arctangent, an odd number above (R144, log 14). -/
theorem atanSum_bracket (h1 : t < 1) (k : ℕ) :
    (atanSum t (2 * k) : ℝ) ≤ Real.arctan t ∧ Real.arctan t ≤ (atanSum t (2 * k + 1) : ℝ) := by
  have hnorm : ‖(t : ℝ)‖ < 1 := by
    rw [Real.norm_of_nonneg (by exact_mod_cast h0)]
    exact_mod_cast h1
  have hanti : Antitone fun n => (arctanTerm t n : ℝ) := fun m n hmn =>
    Rat.cast_le.2 (arctanTerm_antitone h0 h1.le hmn)
  have hsum (n : ℕ) : (atanSum t n : ℝ) = ∑ i ∈ Finset.range n, (-1) ^ i * (arctanTerm t i : ℝ) := by
    rw [atanSum_eq_sum]
    push_cast
    rfl
  have hlim : Filter.Tendsto (fun n => ∑ i ∈ Finset.range n, (-1) ^ i * (arctanTerm t i : ℝ)) Filter.atTop
      (nhds (Real.arctan t)) := by
    simpa [arctanTerm, mul_div_assoc] using (Real.hasSum_arctan hnorm).tendsto_sum_nat
  rw [hsum, hsum]
  exact ⟨hanti.alternating_series_le_tendsto hlim k, hanti.tendsto_le_alternating_series hlim k⟩

theorem atanEnclosure_encloses (h1 : t < 1) : Encloses (atanEnclosure t) (Real.arctan t) :=
  ⟨(atanSum_bracket h0 h1 20).1, (atanSum_bracket h0 h1 20).2⟩

theorem atanSum_even_nonneg (h1 : t ≤ 1) (k : ℕ) : 0 ≤ atanSum t (2 * k) := by
  induction k with
  | zero => exact le_rfl
  | succ k ih =>
    have hstep := arctanTerm_antitone h0 h1 (2 * k).le_succ
    rw [Nat.mul_succ, atanSum_succ_succ, (even_two_mul k).neg_one_pow, one_mul]
    exact add_nonneg ih (sub_nonneg.2 hstep)

theorem atanSum_odd_le (h1 : t ≤ 1) (k : ℕ) : atanSum t (2 * k + 1) ≤ t := by
  induction k with
  | zero => simp [atanSum]
  | succ k ih =>
    have hstep := arctanTerm_antitone h0 h1 (2 * k + 1).le_succ
    have hneg : (-1 : ℚ) ^ (2 * k + 1) = -1 := (odd_two_mul_add_one k).neg_one_pow
    rw [show 2 * (k + 1) + 1 = 2 * k + 1 + 2 by omega, atanSum_succ_succ, hneg]
    linarith

theorem atanEnclosure_within (h1 : t ≤ 1) : Within (atanEnclosure t) 0 t :=
  ⟨atanSum_even_nonneg h0 h1 20, atanSum_odd_le h0 h1 20⟩

end unit

/-! ## Pi and degrees -/

/-- Machin's formula. -/
theorem piEnclosure_encloses : Encloses piEnclosure Real.pi := by
  obtain ⟨hlo5, hhi5⟩ := atanEnclosure_encloses (t := 1 / 5) (by norm_num) (by norm_num)
  obtain ⟨hlo239, hhi239⟩ := atanEnclosure_encloses (t := 1 / 239) (by norm_num) (by norm_num)
  have hmachin : Real.pi = 16 * Real.arctan ((1 / 5 : ℚ) : ℝ) - 4 * Real.arctan ((1 / 239 : ℚ) : ℝ) := by
    have := Real.four_mul_arctan_inv_5_sub_arctan_inv_239
    push_cast
    rw [one_div, one_div]
    linarith
  constructor <;> simp only [piEnclosure, hmachin, Rat.cast_sub, Rat.cast_mul, Rat.cast_ofNat] <;> linarith

theorem three_le_piEnclosure_lo : 3 ≤ piEnclosure.lo := by decide +kernel

/-- Radians as degrees. -/
noncomputable def degrees (r : ℝ) : ℝ := r * 180 / Real.pi

theorem degrees_add (r s : ℝ) : degrees (r + s) = degrees r + degrees s := by
  simp only [degrees, add_mul, add_div]

theorem degrees_neg (r : ℝ) : degrees (-r) = -degrees r := by
  simp only [degrees, neg_mul, neg_div]

theorem degrees_sub (r s : ℝ) : degrees (r - s) = degrees r - degrees s := by
  rw [sub_eq_add_neg, degrees_add, degrees_neg, ← sub_eq_add_neg]

theorem degrees_pi_div (c : ℝ) : degrees (Real.pi / c) = 180 / c := by
  rw [degrees, div_mul_eq_mul_div, div_right_comm, mul_div_cancel_left₀ _ Real.pi_ne_zero]

theorem degrees_pi : degrees Real.pi = 180 := mul_div_cancel_left₀ _ Real.pi_ne_zero

theorem degrees_neg_iff {r : ℝ} : degrees r < 0 ↔ r < 0 := by
  rw [degrees, div_lt_iff₀ Real.pi_pos, zero_mul]
  constructor <;> intro h <;> linarith

theorem piEnclosure_hi_pos : (0 : ℝ) < piEnclosure.hi := Real.pi_pos.trans_le piEnclosure_encloses.le_hi

section inDegrees
variable {t : ℚ} (h0 : 0 ≤ t)
include h0

theorem atanDegrees_encloses (h1 : t < 1) : Encloses (atanDegrees t) (degrees (Real.arctan t)) := by
  obtain ⟨hlo, hhi⟩ := atanEnclosure_encloses h0 h1
  have harctan : 0 ≤ Real.arctan t := Real.arctan_nonneg.2 (by exact_mod_cast h0)
  have hpilo : (0 : ℝ) < piEnclosure.lo := by
    exact_mod_cast (by norm_num : (0 : ℚ) < 3).trans_le three_le_piEnclosure_lo
  constructor <;> simp only [atanDegrees, degrees, Rat.cast_div, Rat.cast_mul, Rat.cast_ofNat, mul_comm (180 : ℝ)]
  · calc ((atanEnclosure t).lo : ℝ) * 180 / piEnclosure.hi ≤ Real.arctan t * 180 / piEnclosure.hi := by
          have := piEnclosure_hi_pos
          gcongr
      _ ≤ Real.arctan t * 180 / Real.pi :=
          div_le_div_of_nonneg_left (by positivity) Real.pi_pos piEnclosure_encloses.le_hi
  · calc Real.arctan t * 180 / Real.pi ≤ Real.arctan t * 180 / piEnclosure.lo :=
          div_le_div_of_nonneg_left (by positivity) hpilo piEnclosure_encloses.lo_le
      _ ≤ (atanEnclosure t).hi * 180 / piEnclosure.lo := by gcongr

theorem atanDegrees_within (h1 : t ≤ 3 / 4) : Within (atanDegrees t) 0 45 := by
  obtain ⟨hlo, hhi⟩ := atanEnclosure_within h0 (h1.trans (by norm_num))
  have hpilo := three_le_piEnclosure_lo
  have hpihi : 0 < piEnclosure.hi := by exact_mod_cast piEnclosure_hi_pos
  constructor
  · exact div_nonneg (by positivity) hpihi.le
  · refine (div_le_iff₀ (by positivity)).2 ?_
    linarith

end inDegrees

/-! ## The octant -/

/-- `(x - y) / (x + y)`, the tangent of 45 degrees less the angle of tangent `y / x`. -/
theorem arctan_add_arctan_complement {y x : ℕ} (hx : 0 < x) :
    Real.arctan ((y : ℝ) / x) + Real.arctan (((x : ℝ) - y) / (x + y)) = Real.pi / 4 := by
  have hx' : (0 : ℝ) < x := by exact_mod_cast hx
  have hy' : (0 : ℝ) ≤ y := Nat.cast_nonneg y
  have hsum : (0 : ℝ) < x + y := by linarith
  have hden : 0 < 1 - (y : ℝ) / x * (((x : ℝ) - y) / (x + y)) := by
    have : 1 - (y : ℝ) / x * (((x : ℝ) - y) / (x + y)) = (x ^ 2 + y ^ 2) / (x * (x + y)) := by
      field_simp
      ring
    rw [this]
    positivity
  have hnum : (y : ℝ) / x + ((x : ℝ) - y) / (x + y) = 1 - (y : ℝ) / x * (((x : ℝ) - y) / (x + y)) := by
    field_simp
    ring
  rw [Real.arctan_add (by linarith), hnum, div_self hden.ne', Real.arctan_one]

/-- The two tangents the octant's series are taken at (log 14). -/
theorem octantDegrees_cases {y x : ℕ} (hx : 0 < x) (hyx : y ≤ x) :
    (∃ t : ℚ, 0 ≤ t ∧ t ≤ 3 / 4 ∧ octantDegrees y x = atanDegrees t ∧
      degrees (Real.arctan ((y : ℝ) / x)) = degrees (Real.arctan t)) ∨
    (∃ t : ℚ, 0 ≤ t ∧ t ≤ 3 / 4 ∧ octantDegrees y x = subFrom 45 (atanDegrees t) ∧
      degrees (Real.arctan ((y : ℝ) / x)) = (45 : ℚ) - degrees (Real.arctan t)) := by
  have hx' : (0 : ℚ) < x := by exact_mod_cast hx
  by_cases h : 12 * y ≤ 5 * x
  · refine .inl ⟨(y : ℚ) / x, by positivity, ?_, if_pos h, by push_cast; rfl⟩
    have : (12 * y : ℚ) ≤ 5 * x := by exact_mod_cast h
    rw [div_le_iff₀ hx']
    linarith
  · refine .inr ⟨((x - y : ℕ) : ℚ) / ((x + y : ℕ) : ℚ), by positivity, ?_, if_neg h, ?_⟩
    · have : (4 * (x - y : ℕ) : ℚ) ≤ 3 * (x + y : ℕ) := by
        exact_mod_cast (by omega : 4 * (x - y) ≤ 3 * (x + y))
      rw [div_le_iff₀ (by positivity)]
      linarith
    · have hangle := arctan_add_arctan_complement (y := y) hx
      rw [eq_sub_iff_add_eq, ← degrees_add]
      push_cast [Nat.cast_sub hyx]
      rw [hangle, degrees_pi_div]
      norm_num

theorem octantDegrees_encloses {y x : ℕ} (hx : 0 < x) (hyx : y ≤ x) :
    Encloses (octantDegrees y x) (degrees (Real.arctan ((y : ℝ) / x))) := by
  obtain ⟨t, h0, h1, hmodel, hangle⟩ | ⟨t, h0, h1, hmodel, hangle⟩ := octantDegrees_cases hx hyx <;>
    rw [hmodel, hangle]
  · exact atanDegrees_encloses h0 (by linarith)
  · exact (atanDegrees_encloses h0 (by linarith)).subFrom 45

theorem octantDegrees_within {y x : ℕ} (hx : 0 < x) (hyx : y ≤ x) : Within (octantDegrees y x) 0 45 := by
  obtain ⟨t, h0, h1, hmodel, -⟩ | ⟨t, h0, h1, hmodel, -⟩ := octantDegrees_cases hx hyx <;> rw [hmodel]
  · exact atanDegrees_within h0 h1
  · exact ((atanDegrees_within h0 h1).subFrom 45).mono (by norm_num) (by norm_num)

/-! ## The quadrant -/

/-- The angle of the point `(x, y)` of the first quadrant, in degrees. -/
noncomputable def quadrantAngle (y x : ℕ) : ℝ := degrees (Complex.arg ⟨x, y⟩)

/-- To the right of the vertical the angle is the arctangent of the quotient. -/
theorem quadrantAngle_eq_arctan {y x : ℕ} (hx : 0 < x) :
    quadrantAngle y x = degrees (Real.arctan ((y : ℝ) / x)) := by
  have hre : 0 < (⟨x, y⟩ : ℂ).re := Nat.cast_pos.2 hx
  obtain ⟨hlo, hhi⟩ := abs_lt.1 (Complex.abs_arg_lt_pi_div_two_iff.2 (.inl hre))
  rw [quadrantAngle, ← Real.arctan_tan hlo hhi, Complex.tan_arg]

/-- The angles of a point and of its mirror image in the diagonal make a right angle. -/
theorem quadrantAngle_swap {y x : ℕ} (hy : 0 < y) : quadrantAngle y x = (90 : ℚ) - quadrantAngle x y := by
  have hy' : (0 : ℝ) < y := Nat.cast_pos.2 hy
  have hright : degrees (Real.pi / 2) = (90 : ℚ) := by
    rw [degrees_pi_div]
    norm_num
  rw [quadrantAngle_eq_arctan hy, ← hright, ← degrees_sub]
  rcases Nat.eq_zero_or_pos x with rfl | hx
  · rw [quadrantAngle, Complex.arg_eq_pi_div_two_iff.2 ⟨Nat.cast_zero, hy'⟩, Nat.cast_zero, zero_div,
      Real.arctan_zero, sub_zero]
  · have hx' : (0 : ℝ) < x := Nat.cast_pos.2 hx
    rw [quadrantAngle_eq_arctan hx, ← Real.arctan_inv_of_pos (by positivity), inv_div]

theorem quadrantDegrees_encloses {y x : ℕ} (h : 0 < y ∨ 0 < x) :
    Encloses (quadrantDegrees y x) (quadrantAngle y x) := by
  unfold quadrantDegrees
  split
  next hyx =>
    have hx : 0 < x := by omega
    rw [quadrantAngle_eq_arctan hx]
    exact octantDegrees_encloses hx hyx
  next hxy =>
    have hy : 0 < y := by omega
    rw [quadrantAngle_swap hy, quadrantAngle_eq_arctan hy]
    exact (octantDegrees_encloses hy (by omega)).subFrom 90

theorem quadrantDegrees_within {y x : ℕ} (h : 0 < y ∨ 0 < x) : Within (quadrantDegrees y x) 0 90 := by
  unfold quadrantDegrees
  split
  next hyx => exact (octantDegrees_within (by omega) hyx).mono le_rfl (by norm_num)
  next hxy => exact ((octantDegrees_within (by omega) (by omega)).subFrom 90).mono (by norm_num) (by norm_num)

/-! ## The heading -/

/-- The argument of a point by its quadrant and that of the point with the signs dropped. -/
theorem arg_eq_arg_abs (x y : ℝ) :
    Complex.arg ⟨x, y⟩ =
      if 0 ≤ x then if 0 ≤ y then Complex.arg ⟨|x|, |y|⟩ else -Complex.arg ⟨|x|, |y|⟩
      else if 0 ≤ y then Real.pi - Complex.arg ⟨|x|, |y|⟩ else Complex.arg ⟨|x|, |y|⟩ - Real.pi := by
  have hnorm : ‖(⟨|x|, |y|⟩ : ℂ)‖ = ‖(⟨x, y⟩ : ℂ)‖ := by simp [Complex.norm_eq_sqrt_sq_add_sq]
  have habs : Complex.arg ⟨|x|, |y|⟩ = Real.arcsin (|y| / ‖(⟨x, y⟩ : ℂ)‖) := by
    rw [← hnorm]
    exact Complex.arg_of_re_nonneg (abs_nonneg x)
  rw [habs]
  split_ifs with hx hy hy
  · rw [abs_of_nonneg hy]
    exact Complex.arg_of_re_nonneg hx
  · rw [abs_of_neg (not_le.1 hy), neg_div, Real.arcsin_neg, neg_neg]
    exact Complex.arg_of_re_nonneg hx
  · rw [abs_of_nonneg hy, ← neg_add_eq_sub, ← Real.arcsin_neg, ← neg_div]
    exact Complex.arg_of_re_neg_of_im_nonneg (not_le.1 hx) hy
  · rw [abs_of_neg (not_le.1 hy)]
    exact Complex.arg_of_re_neg_of_im_neg (not_le.1 hx) (not_le.1 hy)

/-- The exact heading by the quadrant the signs select (R144). -/
theorem exactHeading_eq (ew ns : ℤ) :
    exactHeading ew ns =
      if 0 ≤ ns then
        if 0 ≤ ew then quadrantAngle ew.natAbs ns.natAbs else (360 : ℚ) - quadrantAngle ew.natAbs ns.natAbs
      else
        if 0 ≤ ew then (180 : ℚ) - quadrantAngle ew.natAbs ns.natAbs
        else (180 : ℚ) + quadrantAngle ew.natAbs ns.natAbs := by
  have hheading : exactHeading ew ns =
      if 0 ≤ ew then degrees (Complex.arg ⟨ns, ew⟩) else degrees (Complex.arg ⟨ns, ew⟩) + 360 := by
    have hsign : degrees (Complex.arg ⟨ns, ew⟩) < 0 ↔ ¬ 0 ≤ ew := by
      rw [degrees_neg_iff, Complex.arg_neg_iff, not_le]
      exact Int.cast_lt_zero
    rw [← ite_not]
    simp only [← hsign]
    rfl
  have hangle : quadrantAngle ew.natAbs ns.natAbs = degrees (Complex.arg ⟨|(ns : ℝ)|, |(ew : ℝ)|⟩) := by
    simp only [quadrantAngle, Nat.cast_natAbs, Int.cast_abs]
  rw [hheading, hangle, arg_eq_arg_abs]
  simp only [Int.cast_nonneg_iff, Rat.cast_ofNat]
  split_ifs
  · rfl
  · rw [degrees_sub, degrees_pi]
  · rw [degrees_neg, neg_add_eq_sub]
  · rw [degrees_sub, degrees_pi]
    ring

/-- Settles O48: the enclosure is put together as the exact angle is, and each part holds its own. -/
theorem headingEnclosureHoldsAngle : Obligations.HeadingEnclosureHoldsAngle := by
  intro ew ns hne
  have hq : Encloses (quadrantDegrees ew.natAbs ns.natAbs) (quadrantAngle ew.natAbs ns.natAbs) :=
    quadrantDegrees_encloses (by omega)
  suffices h : Encloses (headingEnclosure ew ns) (exactHeading ew ns) from ⟨h.lo_le, h.le_hi⟩
  rw [exactHeading_eq]
  unfold headingEnclosure
  split_ifs
  · exact hq
  · exact hq.subFrom 360
  · exact hq.subFrom 180
  · exact hq.addTo 180

theorem headingEnclosure_within {ew ns : ℤ} (hne : ¬(ew = 0 ∧ ns = 0)) :
    Within (headingEnclosure ew ns) 0 360 := by
  have hq : Within (quadrantDegrees ew.natAbs ns.natAbs) 0 90 := quadrantDegrees_within (by omega)
  unfold headingEnclosure
  split_ifs
  · exact hq.mono le_rfl (by norm_num)
  · exact (hq.subFrom 360).mono (by norm_num) (by norm_num)
  · exact (hq.subFrom 180).mono (by norm_num) (by norm_num)
  · exact (hq.addTo 180).mono (by norm_num) (by norm_num)

end Sys2Proof.Proofs
end

section
/-! The rounding of the heading (R144): the nearest value where the enclosure decides it, in [0, 360) always. -/

namespace Sys2Proof.Proofs

open Sys2Proof.Machine Sys2Proof.Claims

/-- Which of two numbers is nearer to `r` is a condition affine in `r`. -/
theorem abs_sub_le_abs_sub_iff (v w r : ℝ) : |v - r| ≤ |w - r| ↔ 0 ≤ (w - v) * (v + w - 2 * r) := by
  rw [← sq_le_sq, ← sub_nonneg, show (w - r) ^ 2 - (v - r) ^ 2 = (w - v) * (v + w - 2 * r) by ring]

/-- A value nearest to two numbers is nearest to every number between them. -/
theorem nearestTo_of_between {x : F64} {r s q : ℝ} (hr : NearestTo x r) (hs : NearestTo x s) (hrq : r ≤ q)
    (hqs : q ≤ s) : NearestTo x q := by
  obtain ⟨hfin, hpattern, hnearr⟩ := hr
  obtain ⟨-, -, hnears⟩ := hs
  refine ⟨hfin, hpattern, fun b hb => ?_⟩
  rw [abs_sub_le_abs_sub_iff]
  rcases le_total ((value x : ℚ) : ℝ) (value (ofBits b) : ℚ) with h | h
  · exact ((abs_sub_le_abs_sub_iff _ _ s).1 (hnears b hb)).trans
      (mul_le_mul_of_nonneg_left (by linarith) (sub_nonneg.2 h))
  · exact ((abs_sub_le_abs_sub_iff _ _ r).1 (hnearr b hb)).trans
      (mul_le_mul_of_nonpos_left (by linarith) (sub_nonpos.2 h))

theorem rn_nearestTo {q : ℚ} (h0 : 0 ≤ q) (h360 : q ≤ 360) : NearestTo (rn q) q := by
  have hbound : |q| ≤ finiteBound := by
    rw [abs_of_nonneg h0]
    exact (h360.trans (by norm_num)).trans two_pow_le_finiteBound
  exact (roundingIsNearestEven q (lt_overflow hbound)).1

section moving
variable {ew ns : ℤ} (hne : ¬(ew = 0 ∧ ns = 0))
include hne

theorem headingF_eq_rn : headingF ew ns = rn (headingEnclosure ew ns).lo := if_neg hne

theorem headingEnclosure_lo_le_hi : (headingEnclosure ew ns).lo ≤ (headingEnclosure ew ns).hi := by
  obtain ⟨hlo, hhi⟩ := headingEnclosureHoldsAngle ew ns hne
  exact_mod_cast hlo.trans hhi

theorem headingF_nearestTo_lo : NearestTo (headingF ew ns) (headingEnclosure ew ns).lo := by
  obtain ⟨h0, h360⟩ := headingEnclosure_within hne
  rw [headingF_eq_rn hne]
  exact rn_nearestTo h0 ((headingEnclosure_lo_le_hi hne).trans h360)

end moving

/-- Settles O49: the heading is nearest to both ends of the enclosure. -/
theorem headingNearestWhenDecided : Obligations.HeadingNearestWhenDecided := by
  intro ew ns _ _ hne hdecided
  obtain ⟨h0, h360⟩ := headingEnclosure_within hne
  obtain ⟨hlo, hhi⟩ := headingEnclosureHoldsAngle ew ns hne
  have hnearhi : NearestTo (headingF ew ns) (headingEnclosure ew ns).hi := by
    rw [headingF_eq_rn hne, hdecided]
    exact rn_nearestTo (h0.trans (headingEnclosure_lo_le_hi hne)) h360
  exact nearestTo_of_between (headingF_nearestTo_lo hne) hnearhi hlo hhi

/-- Every heading is a binary64 value. -/
theorem headingF_isBinary64 (ew ns : ℤ) : IsBinary64 (headingF ew ns) := by
  by_cases h : ew = 0 ∧ ns = 0
  · rw [headingF, if_pos h]
    exact represents_zero.isBinary64
  · exact isBinary64_of_nearestTo (headingF_nearestTo_lo h)

/-! ## The range -/

theorem quadrantAngle_nonneg (y x : ℕ) : 0 ≤ quadrantAngle y x :=
  not_lt.1 (mt degrees_neg_iff.1 (not_lt.2 (Complex.arg_nonneg_iff.2 (Nat.cast_nonneg y))))

theorem quadrantAngle_le (y x : ℕ) : quadrantAngle y x ≤ 90 := by
  have hre : 0 ≤ (⟨x, y⟩ : ℂ).re := Nat.cast_nonneg x
  have harg := (abs_le.1 (Complex.abs_arg_le_pi_div_two_iff.2 hre)).2
  rw [quadrantAngle, degrees, div_le_iff₀ Real.pi_pos]
  linarith

/-- Components the encoding admits make no angle near 0 but 0 itself (R144). -/
theorem le_quadrantAngle {y x : ℕ} (hy : 0 < y) (hy' : y ≤ 1022) (hx : x ≤ 1022) :
    1 / 64 ≤ quadrantAngle y x := by
  have him : 0 ≤ (⟨x, y⟩ : ℂ).im := Nat.cast_nonneg y
  have hy1 : (1 : ℝ) ≤ y := by exact_mod_cast hy
  have hnorm : ‖(⟨x, y⟩ : ℂ)‖ ≤ 2044 := by
    refine (Complex.norm_le_abs_re_add_abs_im _).trans ?_
    simp only [Nat.abs_cast]
    exact_mod_cast (by omega : x + y ≤ 2044)
  have hpos : 0 < ‖(⟨x, y⟩ : ℂ)‖ := norm_pos_iff.2 fun h => by
    have : (y : ℝ) = 0 := congrArg Complex.im h
    linarith
  have harg : 1 / 2044 ≤ Complex.arg ⟨x, y⟩ :=
    calc (1 : ℝ) / 2044 ≤ y / ‖(⟨x, y⟩ : ℂ)‖ := div_le_div₀ (by linarith) hy1 hpos hnorm
      _ = Real.sin (Complex.arg ⟨x, y⟩) := (Complex.sin_arg ⟨x, y⟩).symm
      _ ≤ Complex.arg ⟨x, y⟩ := Real.sin_le (Complex.arg_nonneg_iff.2 him)
  have hpi := Real.pi_le_four
  rw [quadrantAngle, degrees, le_div_iff₀ Real.pi_pos]
  linarith

theorem exactHeading_le {ew ns : ℤ} (hew : |ew| ≤ 1022) (hns : |ns| ≤ 1022) :
    exactHeading ew ns ≤ 360 - 1 / 64 := by
  rw [Int.abs_eq_natAbs] at hew hns
  have hnonneg := quadrantAngle_nonneg ew.natAbs ns.natAbs
  have hle := quadrantAngle_le ew.natAbs ns.natAbs
  rw [exactHeading_eq]
  push_cast
  split_ifs
  · linarith
  · have := le_quadrantAngle (y := ew.natAbs) (x := ns.natAbs) (by omega) (by omega) (by omega)
    linarith
  · linarith
  · linarith

/-- Settles O50: the rounded end lies between the binary64 values 0 and 360 - 1/64. -/
theorem headingInRange : Obligations.HeadingInRange := by
  intro ew ns hew hns
  by_cases h : ew = 0 ∧ ns = 0
  · rw [headingF, if_pos h, value_zero]
    exact ⟨rfl, le_rfl, by norm_num, fun _ _ => rfl⟩
  · obtain ⟨h0, -⟩ := headingEnclosure_within h
    have hnear := headingF_nearestTo_lo h
    obtain ⟨hbound, hvalue⟩ := value_roundQ_of_scaled false (q := 23039 / 64) (j := 23039) (k := 6) (by norm_num)
      (by norm_num) (by norm_num)
    refine ⟨(headingF_isBinary64 ew ns).finite, ?_, ?_, fun he hn => absurd ⟨he, hn⟩ h⟩
    · have := le_value_of_nearestTo hnear represents_zero.isBinary64 (by rw [value_zero]; exact_mod_cast h0)
      rwa [value_zero] at this
    · have hlo := (headingEnclosureHoldsAngle ew ns h).1.trans (exactHeading_le hew hns)
      refine (value_le_of_nearestTo hnear hbound ?_).trans_lt (by rw [hvalue]; norm_num)
      rw [hvalue]
      refine hlo.trans ?_
      norm_num

end Sys2Proof.Proofs
end

section
/-! DEC_VEL: the components at their payload offsets in their ranges, speed and heading of the components, and zeros
for the subtypes that are not decoded (R140 to R145). -/

namespace Sys2Proof.Proofs

open Sys2Proof.Machine Sys2Proof.Claims

/-! ## The components -/

theorem natAbs_velComponent (neg : Bool) (raw scale : Nat) :
    (velComponent neg raw scale).natAbs = (raw - 1) * scale := by
  unfold velComponent
  split
  next h => simp [h]
  next => cases neg <;> simp only [Bool.false_eq_true, if_true, if_false, Int.natAbs_neg, Int.natAbs_natCast]

/-- A component is read back from its register (R142). -/
theorem toInt_ofInt_velComponent (neg : Bool) {raw scale : Nat} (h : (raw - 1) * scale ≤ 32640) :
    (BitVec.ofInt 32 (velComponent neg raw scale)).toInt = velComponent neg raw scale := by
  have := natAbs_velComponent neg raw scale
  exact BitVec.toInt_ofInt_eq_self (by decide) (by omega) (by omega)

theorem velComponent_eq_componentOf (neg : Bool) (raw scale : Nat) :
    velComponent neg raw scale = componentOf neg.toNat raw scale := by
  unfold velComponent componentOf
  split
  next => rw [mul_zero]
  next h =>
    have hraw : ((raw - 1 : Nat) : Int) = raw - 1 := by omega
    cases neg <;> simp [hraw]

/-- The component of the sign at payload bit `b` and the magnitude of `n` bits after it (R141). -/
def componentAt (X : Frame) (b n scale : Nat) : Int :=
  velComponent (frameBit X (32 + b)) (payload X (b + 1) n) scale

theorem componentAt_eq_componentOf (X : Frame) {b n : Nat} (scale : Nat) (h : 32 + (b + 1) + n ≤ 112) :
    componentAt X b n scale = componentOf (fieldOf X (32 + b) 1) (fieldOf X (32 + (b + 1)) n) scale := by
  have hsign : (frameBit X (32 + b)).toNat = fieldOf X (32 + b) 1 :=
    (BitVec.toNat_ofBool _).symm.trans (payloadBit_toNat X (by omega))
  have hraw : payload X (b + 1) n = fieldOf X (32 + (b + 1)) n := fld_eq_div_mod X _ n h
  rw [componentAt, velComponent_eq_componentOf, hsign, hraw]

section components
variable (X : Frame) (b : Nat)

theorem abs_knots_le : |componentAt X b 10 1| ≤ 1022 := by
  have : payload X (b + 1) 10 < 2 ^ 10 := fld_lt X _ 10
  rw [Int.abs_eq_natAbs, componentAt, natAbs_velComponent]
  omega

theorem toInt_ofInt_knots : (BitVec.ofInt 32 (componentAt X b 10 1)).toInt = componentAt X b 10 1 := by
  have : payload X (b + 1) 10 < 2 ^ 10 := fld_lt X _ 10
  exact toInt_ofInt_velComponent _ (by omega)

theorem abs_rate_le : |componentAt X b 9 64| ≤ 32640 := by
  have : payload X (b + 1) 9 < 2 ^ 9 := fld_lt X _ 9
  rw [Int.abs_eq_natAbs, componentAt, natAbs_velComponent]
  omega

theorem rate_mod : componentAt X b 9 64 % 64 = 0 := by
  have := natAbs_velComponent (frameBit X (32 + b)) (payload X (b + 1) 9) 64
  rw [componentAt]
  omega

theorem toInt_ofInt_rate : (BitVec.ofInt 32 (componentAt X b 9 64)).toInt = componentAt X b 9 64 := by
  have : payload X (b + 1) 9 < 2 ^ 9 := fld_lt X _ 9
  exact toInt_ofInt_velComponent _ (by omega)

end components

/-! ## The record -/

theorem velFields_sub (X : Frame) : (velFields X).sub = BitVec.ofNat 3 (payload X 5 3) := by
  simp only [velFields]
  split <;> rfl

theorem payload_subtype (X : Frame) : payload X 5 3 = fieldOf X 37 3 := fld_eq_div_mod X 37 3 (by decide)

/-- The record of a ground speed report (R141). -/
theorem velFields_of_groundSpeed {X : Frame} (h : fieldOf X 37 3 = 1 ∨ fieldOf X 37 3 = 2) :
    (velFields X).ew = BitVec.ofInt 32 (componentAt X 13 10 1) ∧
    (velFields X).ns = BitVec.ofInt 32 (componentAt X 24 10 1) ∧
    (velFields X).vr = BitVec.ofInt 32 (componentAt X 36 9 64) ∧
    (velFields X).speed = toBits (speedF (componentAt X 13 10 1) (componentAt X 24 10 1)) ∧
    (velFields X).hdg = toBits (headingF (componentAt X 13 10 1) (componentAt X 24 10 1)) := by
  rw [← payload_subtype] at h
  simp only [velFields, if_pos h]
  exact ⟨rfl, rfl, rfl, rfl, rfl⟩

/-- The record of every other subtype (R145). -/
theorem velFields_of_otherSubtype {X : Frame} (h : ¬(fieldOf X 37 3 = 1 ∨ fieldOf X 37 3 = 2)) :
    velFields X = { VelRecord.zero with sub := BitVec.ofNat 3 (payload X 5 3) } := by
  rw [← payload_subtype] at h
  exact if_neg h

/-! ## The command -/

/-- DEC_VEL leaves the velocity record of the latched frame (R140). -/
theorem decVel_completes {s : State} {p : Pending} (hs : s.cst = .busy p) :
    ∃ t, exec .decVel s = .next t ∧ t.msg.vel = velFields p.snap.frame ∧ readReg t .msgKind = 3 ∧
      CompletesWriting msgRegs s t := by
  obtain ⟨hkind, -⟩ := header_of_setMsg .velocity p s
  exact ⟨_, exec_next hs rfl, rfl, BitVec.eq_of_toNat_eq hkind, completesWriting_setMsg _ s⟩

/-- Settles O45: the components fit their registers, and the other subtypes leave the zero record. -/
theorem decVelComponents : Obligations.DecVelComponents := by
  intro s p hs X st
  obtain ⟨t, hexec, (hvel : t.msg.vel = velFields X), hkind, hframe⟩ := decVel_completes hs
  refine ⟨t, hexec, hframe, hkind, ?_, ?_⟩
  · rw [readReg, velSubWord, toNat_zero_append, hvel, velFields_sub]
    exact toNat_ofNat_fld (by decide)
  · split
    next h =>
      obtain ⟨hew, hns, hvr, -, -⟩ := velFields_of_groundSpeed (X := X) h
      obtain ⟨hewLo, hewHi⟩ := abs_le.1 (abs_knots_le X 13)
      obtain ⟨hnsLo, hnsHi⟩ := abs_le.1 (abs_knots_le X 24)
      obtain ⟨hvrLo, hvrHi⟩ := abs_le.1 (abs_rate_le X 36)
      simp only [readReg, hvel, hew, hns, hvr, toInt_ofInt_knots, toInt_ofInt_rate]
      refine ⟨componentAt_eq_componentOf X 1 (by decide), componentAt_eq_componentOf X 1 (by decide),
        componentAt_eq_componentOf X 64 (by decide), hewLo, hewHi, hnsLo, hnsHi, hvrLo, hvrHi, rate_mod X 36⟩
    next h =>
      intro r hr
      rw [velFields_of_otherSubtype (X := X) h] at hvel
      simp only [List.mem_cons, List.not_mem_nil, or_false] at hr
      rcases hr with rfl | rfl | rfl | rfl | rfl | rfl | rfl <;> simp only [readReg, hvel] <;> rfl

/-- Settles O46: both values survive their encoding, and the components their registers. -/
theorem decVelSpeedAndHeading : Obligations.DecVelSpeedAndHeading := by
  intro s p hs h
  obtain ⟨t, hexec, hvel, -, -⟩ := decVel_completes hs
  obtain ⟨hew, hns, -, hspeed, hhdg⟩ := velFields_of_groundSpeed h
  refine ⟨t, hexec, ?_⟩
  simp only [readReg, hvel, hew, hns, hspeed, hhdg, toInt_ofInt_knots, hiHalf_append_loHalf]
  have hsum := sumOfSquares_le (abs_knots_le p.snap.frame 13) (abs_knots_le p.snap.frame 24)
  have hnear := speedF_nearestTo (hsum.trans_lt (by norm_num))
  exact ⟨(isBinary64_of_nearestTo hnear).ofBits_toBits, (headingF_isBinary64 _ _).ofBits_toBits⟩

end Sys2Proof.Proofs
end

section
/-! POS_TO_SLOT, CPR_NL, and CPR_RESOLVE up to the roles of its slots: the preconditions and the exchange of the
slots (R160 to R165, R172). -/

namespace Sys2Proof.Proofs

open Sys2Proof.Machine Sys2Proof.Claims

/-- Settles O53: the completion writes the slot of the latched message. -/
theorem posToSlotCopies : Obligations.PosToSlotCopies := by
  intro s p slot hs hkind
  obtain ⟨hexec, hframe⟩ := completes_with_resultsOf hs (i := .posToSlot slot) rfl fun _ _ => hkind
  refine ⟨_, hexec, hframe, ?_⟩
  rw [finish_slot0, finish_slot1, resultsOf, setSlot_slot0, setSlot_slot1]
  split <;> rfl

/-- Settles O54: the zone count is below 2^32, so RES0 holds all of it. -/
theorem cprNlByTable : Obligations.CprNlByTable := by
  intro s p hs
  obtain ⟨hexec, hframe⟩ := completes_with_resultsOf hs (i := .cprNl) rfl nofun
  have hres : (BitVec.ofNat 32 (nlZones p.snap.nlLat)).toNat = nlZones p.snap.nlLat := by
    have := nlZones_le p.snap.nlLat
    rw [BitVec.toNat_ofNat]
    omega
  refine ⟨_, hexec, ?_, rfl, hframe⟩
  change IsZoneCount _ (BitVec.ofNat 32 (nlZones p.snap.nlLat)).toNat
  rw [hres]
  exact isZoneCount_nlZones _

/-! ## The preconditions -/

theorem cprResolve_completes {s : State} {p : Pending} (hs : s.cst = .busy p) :
    ∃ t, exec .cprResolve s = .next t ∧ t.cpr = cprResolve p.snap.slot0 p.snap.slot1 p.snap.refLon ∧
      CompletesWriting cprRegs s t := by
  obtain ⟨hexec, hframe⟩ := completes_with_resultsOf hs (i := .cprResolve) rfl nofun
  exact ⟨_, hexec, rfl, hframe⟩

/-- The result of a failed precondition: the reason in CPR_STATUS, 0 in the other registers (R171). -/
theorem readReg_of_precondition {t : State} {reason : CprReason} (h : t.cpr = cprInvalid reason 0 0 0 0) :
    (readReg t .cprStatus).toNat = 16 * cprReasonNumber reason ∧
      ∀ r ∈ cprRegs, r ≠ .cprStatus → readReg t r = 0 := by
  refine ⟨by rw [readReg_cprStatus_toNat, h]; simp [cprInvalid], fun r hr hne => ?_⟩
  simp only [cprRegs, List.mem_cons, List.not_mem_nil, or_false, hne, false_or] at hr
  have hhi : hiHalf 0#64 = 0#32 := by decide
  rcases hr with rfl | rfl | rfl | rfl | rfl | rfl | rfl <;> simp [readReg, h, cprInvalid, loHalf, hhi]

theorem cprResolve_parity {s0 s1 : Slot} (h : s0.f = s1.f) (refLon : DWord) :
    cprResolve s0 s1 refLon = cprInvalid .parity 0 0 0 0 := by
  rw [cprResolve, if_pos h]

/-- Beyond the window the pair is stale, whatever the order of the slots (R165). -/
theorem cprResolve_stale {s0 s1 : Slot} (hf : s0.f ≠ s1.f)
    (hts : 10000 < |(s0.ts.toNat : Int) - s1.ts.toNat|) (refLon : DWord) :
    cprResolve s0 s1 refLon = cprInvalid .stale 0 0 0 0 := by
  obtain ⟨E, O, hroles⟩ := exists_roles hf
  have hdist : (10000 : Int) < tsDistance E.ts O.ts := by
    rw [tsDistance_eq]
    obtain ⟨rfl, rfl⟩ | ⟨rfl, rfl⟩ := hroles.slots
    · exact hts
    · rwa [abs_sub_comm]
  have hwin : Config.pairWindow < tsDistance E.ts O.ts := by exact_mod_cast hdist
  rw [hroles.cprResolve, resolvePair_eq, if_pos hwin]

/-- Inside the window the result is not that of a stale pair (R165). -/
theorem cprResolve_reason_ne_stale {s0 s1 : Slot} (hf : s0.f ≠ s1.f)
    (hts : |(s0.ts.toNat : Int) - s1.ts.toNat| ≤ 10000) (refLon : DWord) :
    (cprResolve s0 s1 refLon).reason ≠ .stale := by
  obtain ⟨E, O, hroles⟩ := exists_roles hf
  rw [hroles.cprResolve]
  obtain ⟨hreason, -⟩ := (resolvePair_outcome (hroles.within hts) refLon).reasons
  rcases hreason with h | h | h <;> rw [h] <;> decide

/-- CPR_STATUS 0x20 says that the pair is stale and nothing else (R44). -/
theorem reason_eq_stale_of_cprStatus {t : State} (h : readReg t .cprStatus = 0x00000020#32) :
    t.cpr.reason = .stale := by
  have hword := readReg_cprStatus_toNat t
  have hused := t.cpr.used.isLt
  rw [h, BitVec.toNat_ofNat] at hword
  cases hr : t.cpr.reason with
  | stale => rfl
  | ok | parity | nl | ref =>
    rw [hr, cprReasonNumber] at hword
    split at hword <;> omega

/-- Settles O55: equal parities, a stale pair, and a pair inside the window, whose reason is another one. -/
theorem cprPreconditions : Obligations.CprPreconditions := by
  intro s p hs
  obtain ⟨t, hexec, hcpr, hframe⟩ := cprResolve_completes hs
  refine ⟨t, hexec, hframe, fun hf => ?_, fun hf => ?_⟩
  · rw [cprResolve_parity hf] at hcpr
    obtain ⟨hstatus, hzero⟩ := readReg_of_precondition hcpr
    exact ⟨BitVec.eq_of_toNat_eq hstatus, hzero⟩
  · have hstale (hts : 10000 < |(p.snap.slot0.ts.toNat : Int) - p.snap.slot1.ts.toNat|) :=
      readReg_of_precondition (hcpr.trans (cprResolve_stale hf hts _))
    refine ⟨⟨fun hts => BitVec.eq_of_toNat_eq (hstale hts).1, fun hstatus => ?_⟩, fun hts => (hstale hts).2⟩
    by_contra hts
    refine cprResolve_reason_ne_stale hf (not_lt.1 hts) p.snap.refLon ?_
    rw [← hcpr]
    exact reason_eq_stale_of_cprStatus hstatus

/-! ## The exchange of the slots -/

theorem Roles.swap {s0 s1 E O : Slot} (h : Roles s0 s1 E O) : Roles s1 s0 E O :=
  ⟨h.even, h.odd, h.slots.symm.imp And.symm And.symm⟩

/-- The parity tags give the roles, not the slot numbers (R164, R172). -/
theorem cprResolve_swap (s0 s1 : Slot) (refLon : DWord) : cprResolve s1 s0 refLon = cprResolve s0 s1 refLon := by
  by_cases hf : s0.f = s1.f
  · rw [cprResolve_parity hf, cprResolve_parity hf.symm]
  · obtain ⟨E, O, hroles⟩ := exists_roles hf
    rw [hroles.cprResolve, hroles.swap.cprResolve]

/-- Settles O56: both commands resolve the same pair of roles. -/
theorem cprSlotsInterchangeable : Obligations.CprSlotsInterchangeable := by
  intro s s' p p' hs hs' h0 h1 href
  obtain ⟨t, hexec, hcpr⟩ := exec_cprResolve hs
  obtain ⟨t', hexec', hcpr'⟩ := exec_cprResolve hs'
  refine ⟨t, t', hexec, hexec', ?_⟩
  rw [hcpr', hcpr, h0, h1, href, cprResolve_swap]

end Sys2Proof.Proofs
end

section
/-! Exact arithmetic on binary64 values (R15): a value is its own rounding, and so are its integral part, its
remainder by 360, and what the wrap into (-180, 180] makes of it. -/

namespace Sys2Proof.Proofs

open Sys2Proof.Machine Sys2Proof.Claims

/-! ## The grid of the finite values -/

/-- A finite value is an integer of at most 53 bits times a power of two between the least and the greatest one. -/
theorem IsBinary64.exists_significand {x : F64} (h : IsBinary64 x) :
    ∃ j e : ℤ, value x = j * 2 ^ e ∧ |j| < 2 ^ 53 ∧ -1074 ≤ e ∧ e ≤ 971 := by
  obtain ⟨hfin, b, rfl⟩ := h
  have hfrac := (b.extractLsb' 0 52).isLt
  have hfields : ∃ neg m e, ofBits b = .fin neg m e ∧ m < 2 ^ 53 ∧ -1074 ≤ e ∧ e ≤ 971 := by
    rcases ofBits_cases b with ⟨-, -, h⟩ | ⟨-, h⟩ | ⟨-, h⟩ | ⟨hlt, hpos, h⟩
    · simp [h, isFinite] at hfin
    · simp [h, isFinite] at hfin
    · exact ⟨_, _, _, h, by omega, le_rfl, by norm_num⟩
    · exact ⟨_, _, _, h, by omega, by omega, by omega⟩
  obtain ⟨neg, m, e, hb, hm, he⟩ := hfields
  refine ⟨(if neg then -1 else 1) * m, e, by rw [hb, value_fin_rat], ?_, he⟩
  have hsign : |(if neg then -1 else 1 : ℤ)| = 1 := by cases neg <;> rfl
  rw [abs_mul, hsign, one_mul, Nat.abs_cast]
  exact_mod_cast hm

/-- With an exponent of at least 0 the value is an integer. -/
theorem intCast_mul_two_zpow (j : ℤ) {e : ℤ} (he : 0 ≤ e) : (j : ℚ) * 2 ^ e = ((j * 2 ^ e.toNat : ℤ) : ℚ) := by
  obtain ⟨n, rfl⟩ := Int.eq_ofNat_of_zero_le he
  rw [Int.toNat_natCast, zpow_natCast]
  push_cast
  rfl

/-- The greatest finite magnitude leaves room below the overflow threshold. -/
theorem IsBinary64.add_lt_overflow {x : F64} (h : IsBinary64 x) {d : ℚ} (hd : |d| ≤ 2 ^ 53) :
    |value x + d| < 2 ^ 1024 - 2 ^ 970 := by
  obtain ⟨j, e, hval, hj, -, he⟩ := h.exists_significand
  have hj' : |(j : ℚ)| ≤ 2 ^ 53 - 1 := by exact_mod_cast Int.le_sub_one_of_lt hj
  have hx : |value x| ≤ (2 ^ 53 - 1) * 2 ^ 971 := by
    rw [hval, abs_mul, abs_of_pos (by positivity : (0 : ℚ) < 2 ^ e)]
    have hpow : (2 : ℚ) ^ e ≤ 2 ^ 971 := by
      rw [← zpow_natCast]
      exact zpow_le_zpow_right₀ one_le_two he
    exact mul_le_mul hj' hpow (by positivity) (by norm_num)
  have hsmall : (2 : ℚ) ^ 53 < 2 ^ 970 := pow_lt_pow_right₀ one_lt_two (by norm_num)
  have h971 : (2 : ℚ) ^ 971 = 2 ^ 970 * 2 := pow_succ _ 970
  have h1024 : (2 : ℚ) ^ 1024 = 2 ^ 53 * 2 ^ 971 := by rw [← pow_add]
  have hroom (X Y D a b : ℚ) (hY : Y = X * 2) (ha : a ≤ (2 ^ 53 - 1) * Y) (hb : b ≤ D) (hD : D < X) :
      a + b < 2 ^ 53 * Y - X := by linarith
  rw [h1024]
  exact (abs_add_le _ _).trans_lt (hroom _ _ _ _ _ h971 hx hd hsmall)

theorem IsBinary64.lt_overflow {x : F64} (h : IsBinary64 x) : |value x| < 2 ^ 1024 - 2 ^ 970 := by
  simpa using h.add_lt_overflow (d := 0) (by norm_num)

/-- From 2^7 on the values are multiples of 2^-45. -/
theorem IsBinary64.exists_mul_two_pow_eq {x : F64} (h : IsBinary64 x) (hge : 128 ≤ |value x|) :
    ∃ i : ℤ, value x * 2 ^ 45 = i := by
  obtain ⟨j, e, hval, hj, -, -⟩ := h.exists_significand
  have he : -45 ≤ e := by
    by_contra hlow
    have hpow : (2 : ℚ) ^ e ≤ 2 ^ (-46 : ℤ) := zpow_le_zpow_right₀ one_le_two (by omega)
    have hj' : |(j : ℚ)| < 2 ^ 53 := by exact_mod_cast hj
    rw [hval, abs_mul, abs_of_pos (by positivity : (0 : ℚ) < 2 ^ e)] at hge
    have hsmall : |(j : ℚ)| * 2 ^ e < 2 ^ 53 * 2 ^ (-46 : ℤ) :=
      mul_lt_mul hj' hpow (by positivity) (by positivity)
    norm_num at hsmall
    linarith
  refine ⟨j * 2 ^ (e + 45).toNat, ?_⟩
  rw [hval, mul_assoc, ← zpow_natCast, ← zpow_add₀ two_ne_zero]
  exact intCast_mul_two_zpow j (by omega)

/-! ## Values that are their own rounding -/

/-- The sign of an exact zero does not decide finiteness. -/
theorem isFinite_roundQ (z : Bool) (q : ℚ) : isFinite (roundQ z q) = isFinite (rn q) := by
  unfold rn roundQ
  split <;> rfl

/-- A binary64 value is its own rounding. -/
theorem value_roundQ_value {x : F64} (h : IsBinary64 x) (z : Bool) :
    IsBinary64 (roundQ z (value x)) ∧ value (roundQ z (value x)) = value x := by
  obtain ⟨k, e, hround, hrep⟩ := roundQ_roundsTo z h.lt_overflow
  refine ⟨hrep.isBinary64, ?_⟩
  obtain ⟨hfin, b, rfl⟩ := h
  obtain ⟨-, -, hnear⟩ := hround.nearestTo hrep
  have hzero := hnear b hfin
  rw [sub_self, abs_zero] at hzero
  exact_mod_cast sub_eq_zero.1 (abs_nonpos_iff.1 hzero)

/-- The integral part of a binary64 value is a binary64 value: below 2^53 for its size, from there on because the
value is an integer. -/
theorem value_f64_floor {x : F64} (h : IsBinary64 x) :
    IsBinary64 (f64 ⌊value x⌋) ∧ value (f64 ⌊value x⌋) = ⌊value x⌋ := by
  obtain ⟨j, e, hval, hj, -, -⟩ := h.exists_significand
  rcases le_or_gt 0 e with he | he
  · have hfloor : ((⌊value x⌋ : ℤ) : ℚ) = value x := by rw [hval, intCast_mul_two_zpow j he, Int.floor_intCast]
    have hself := value_roundQ_value h false
    rw [← hfloor] at hself
    exact hself
  · refine value_f64 ?_
    have hpow : (2 : ℚ) ^ e ≤ 2 ^ (-1 : ℤ) := zpow_le_zpow_right₀ one_le_two (by omega)
    have hj' : |(j : ℚ)| ≤ 2 ^ 53 := by exact_mod_cast hj.le
    have habs : |value x| ≤ 2 ^ 53 * 2 ^ (-1 : ℤ) := by
      rw [hval, abs_mul, abs_of_pos (by positivity : (0 : ℚ) < 2 ^ e)]
      exact mul_le_mul hj' hpow (by positivity) (by positivity)
    have hfloor : |((⌊value x⌋ : ℤ) : ℚ)| ≤ |value x| + 1 := abs_floor_le (value x)
    have hlt : |((⌊value x⌋ : ℤ) : ℚ)| < 2 ^ 53 := by
      norm_num at habs
      linarith
    exact_mod_cast hlt

/-! ## The remainder by 360 -/

theorem abs_sub_truncQ_le_abs (q : ℚ) : |q - truncQ q| ≤ |q| := by
  have hfloor (p : ℚ) (hp : 0 ≤ p) : |p - (p.floor : ℚ)| ≤ |p| := by
    have hle : (p.floor : ℚ) ≤ p := Int.floor_le p
    have h0 : (0 : ℚ) ≤ p.floor := by exact_mod_cast Int.floor_nonneg.2 hp
    rw [abs_of_nonneg (sub_nonneg.2 hle), abs_of_nonneg hp]
    linarith
  unfold truncQ
  split
  next h => exact hfloor q h
  next h =>
    have hneg := hfloor (-q) (by linarith)
    rw [abs_neg] at hneg
    refine le_trans (le_of_eq ?_) hneg
    rw [← abs_neg]
    congr 1
    push_cast
    ring

/-- The remainder of step 8 before the wrap (R170). -/
def remainder360 (q : ℚ) : ℚ := q - 360 * (truncQ (q / 360) : ℚ)

theorem remainder360_eq (q : ℚ) : remainder360 q = 360 * (q / 360 - truncQ (q / 360)) := by
  unfold remainder360
  ring

theorem abs_remainder360_le (q : ℚ) : |remainder360 q| ≤ 360 := by
  have h := abs_sub_truncQ_le (q / 360)
  rw [remainder360_eq, abs_mul, abs_of_pos (by norm_num)]
  linarith

theorem abs_remainder360_le_abs (q : ℚ) : |remainder360 q| ≤ |q| := by
  have h := abs_sub_truncQ_le_abs (q / 360)
  rw [abs_div, abs_of_pos (by norm_num : (0 : ℚ) < 360)] at h
  rw [remainder360_eq, abs_mul, abs_of_pos (by norm_num)]
  linarith

/-- The remainder is exact: an integer if the value is one, else of no more bits than the value (R15, R170). -/
theorem value_fmodF_360 {x : F64} (hx : IsBinary64 x) :
    IsBinary64 (fmodF x (f64 360)) ∧ value (fmodF x (f64 360)) = remainder360 (value x) := by
  obtain ⟨h360, hv360⟩ := value_f64 (n := 360) (by norm_num)
  obtain ⟨z, hz⟩ := fmodF_eq_roundQ hx.finite h360.finite (by rw [hv360]; norm_num)
  rw [hv360, Int.cast_ofNat] at hz
  change fmodF x (f64 360) = roundQ z (remainder360 (value x)) at hz
  rw [hz]
  obtain ⟨j, e, hval, hj, hleast, -⟩ := hx.exists_significand
  rcases le_or_gt 0 e with he | he
  · have hint : remainder360 (value x) = ((j * 2 ^ e.toNat - 360 * truncQ (value x / 360) : ℤ) : ℚ) := by
      rw [Int.cast_sub, ← intCast_mul_two_zpow j he, ← hval, remainder360]
      push_cast
      rfl
    have hlt : |remainder360 (value x)| < 2 ^ 53 := (abs_remainder360_le _).trans_lt (by norm_num)
    refine value_roundQ_of_scaled z (k := 0) (by norm_num) ?_ (by rw [pow_zero, mul_one, hint])
    rw [hint] at hlt
    exact_mod_cast hlt
  · have hpos : (0 : ℚ) < 2 ^ (-e).toNat := by positivity
    have hexp : (2 : ℚ) ^ e * 2 ^ (-e).toNat = 1 := by
      rw [← zpow_natCast, ← zpow_add₀ two_ne_zero, Int.toNat_of_nonneg (by omega), add_neg_cancel, zpow_zero]
    have hx' : value x * 2 ^ (-e).toNat = j := by rw [hval, mul_assoc, hexp, mul_one]
    have hscaled : remainder360 (value x) * 2 ^ (-e).toNat =
        ((j - 360 * truncQ (value x / 360) * 2 ^ (-e).toNat : ℤ) : ℚ) := by
      rw [remainder360, sub_mul, hx']
      push_cast
      rfl
    have hle : |remainder360 (value x) * 2 ^ (-e).toNat| ≤ |(j : ℚ)| := by
      rw [← hx', abs_mul, abs_mul]
      exact mul_le_mul_of_nonneg_right (abs_remainder360_le_abs _) (abs_nonneg _)
    refine value_roundQ_of_scaled z (k := (-e).toNat) (by omega) ?_ hscaled
    rw [hscaled] at hle
    exact lt_of_le_of_lt (by exact_mod_cast hle) hj

/-! ## The wrap -/

/-- `w` moved by 360 into (-180, 180] (R170). -/
def wrappedInto180 (w : ℚ) : ℚ := if 180 < w then w - 360 else if w ≤ -180 then w + 360 else w

theorem wrappedInto180_bounds {w : ℚ} (h : |w| ≤ 360) : -180 < wrappedInto180 w ∧ wrappedInto180 w ≤ 180 := by
  obtain ⟨hlo, hhi⟩ := abs_le.1 h
  unfold wrappedInto180
  split_ifs <;> constructor <;> linarith

/-- Moving by 360 is exact where the wrap does it: both numbers are multiples of 2^-45. -/
theorem value_roundQ_shifted {x : F64} (hx : IsBinary64 x) (hge : 128 ≤ |value x|) {d : ℤ}
    (hlt : |value x + d| < 256) (z : Bool) :
    IsBinary64 (roundQ z (value x + d)) ∧ value (roundQ z (value x + d)) = value x + d := by
  obtain ⟨i, hi⟩ := hx.exists_mul_two_pow_eq hge
  have hscaled : (value x + d) * 2 ^ 45 = ((i + d * 2 ^ 45 : ℤ) : ℚ) := by
    rw [add_mul, hi]
    push_cast
    rfl
  refine value_roundQ_of_scaled z (k := 45) (by norm_num) ?_ hscaled
  have hlt53 : |(value x + d) * 2 ^ 45| < 2 ^ 53 := by
    rw [abs_mul, abs_of_pos (by positivity : (0 : ℚ) < 2 ^ 45)]
    linarith
  rw [hscaled] at hlt53
  exact_mod_cast hlt53

/-- The wrap is exact (R170). -/
theorem value_wrap180 {x : F64} (hx : IsBinary64 x) (hle : |value x| ≤ 360) :
    IsBinary64 (wrap180 x) ∧ value (wrap180 x) = wrappedInto180 (value x) := by
  obtain ⟨hlo, hhi⟩ := abs_le.1 hle
  obtain ⟨h360, hv360⟩ := value_f64 (n := 360) (by norm_num)
  unfold wrap180 wrappedInto180
  split
  next hgt =>
    obtain ⟨z, hz⟩ := subF_eq_roundQ hx.finite h360.finite
    have hmoved := value_roundQ_shifted hx (d := -360) (by rw [abs_of_nonneg] <;> linarith)
      (by rw [abs_lt]; push_cast; constructor <;> linarith) z
    rw [Int.cast_neg, Int.cast_ofNat, ← sub_eq_add_neg] at hmoved
    rw [hz, hv360, Int.cast_ofNat]
    exact hmoved
  next =>
    split
    next hneg =>
      obtain ⟨z, hz⟩ := addF_eq_roundQ hx.finite h360.finite
      have hmoved := value_roundQ_shifted hx (d := 360) (by rw [abs_of_nonpos] <;> linarith)
        (by rw [abs_lt]; push_cast; constructor <;> linarith) z
      rw [hz, hv360]
      exact hmoved
    next => exact ⟨hx, rfl⟩

/-- Remainder and wrap of the moved longitude are exact. -/
theorem value_wrap180_fmodF {x : F64} (hx : IsBinary64 x) :
    IsBinary64 (wrap180 (fmodF x (f64 360))) ∧
      value (wrap180 (fmodF x (f64 360))) = wrappedInto180 (remainder360 (value x)) := by
  obtain ⟨hrem, hval⟩ := value_fmodF_360 hx
  have hwrap := value_wrap180 hrem (hval ▸ abs_remainder360_le _)
  rwa [hval] at hwrap

end Sys2Proof.Proofs
end

section
/-! The longitude of a pair step by step (R163, steps 6 to 8, R169, R170): the value of each step, and when the moved
longitude is finite. -/

namespace Sys2Proof.Proofs

open Sys2Proof.Machine Sys2Proof.Claims

/-! ## The zone index -/

/-- `m` as an integer quotient (R169). -/
theorem cprMIndex_eq (nl : Nat) (u v : BitVec 17) :
    cprMIndex nl (cprNormal u) (cprNormal v) =
      (u.toNat * ((nl : Int) - 1) - v.toNat * (nl : Int) + 65536) / 131072 := by
  rw [cprMIndex, (value_cprNormal u).2, (value_cprNormal v).2]
  have hquot : ((u.toNat / 131072) * ((nl : ℚ) - 1) - (v.toNat / 131072) * (nl : ℚ) + 1 / 2 : ℚ) =
      ((u.toNat * ((nl : Int) - 1) - v.toNat * (nl : Int) + 65536 : Int) : ℚ) / (131072 : Nat) := by
    push_cast
    ring
  rw [hquot]
  exact Rat.floor_intCast_div_natCast _ _

theorem cprMIndex_bounds {nl : Nat} (hpos : 0 < nl) (hle : nl ≤ 59) (u v : BitVec 17) :
    -(nl : Int) ≤ cprMIndex nl (cprNormal u) (cprNormal v) ∧
      cprMIndex nl (cprNormal u) (cprNormal v) ≤ (nl : Int) - 1 := by
  have hu : (u.toNat : Int) ≤ 131071 := by have := u.isLt; omega
  have hv : (v.toNat : Int) ≤ 131071 := by have := v.isLt; omega
  have hu0 : 0 ≤ (u.toNat : Int) * ((nl : Int) - 1) := mul_nonneg (by omega) (by omega)
  have hv0 : 0 ≤ (v.toNat : Int) * (nl : Int) := mul_nonneg (by omega) (by omega)
  have hu1 : (u.toNat : Int) * ((nl : Int) - 1) ≤ 131071 * ((nl : Int) - 1) :=
    mul_le_mul_of_nonneg_right hu (by omega)
  have hv1 : (v.toNat : Int) * (nl : Int) ≤ 131071 * nl := mul_le_mul_of_nonneg_right hv (by omega)
  rw [cprMIndex_eq]
  omega

theorem toInt_ofInt_cprMIndex {nl : Nat} (hpos : 0 < nl) (hle : nl ≤ 59) (u v : BitVec 17) :
    (BitVec.ofInt 32 (cprMIndex nl (cprNormal u) (cprNormal v))).toInt =
      cprMIndex nl (cprNormal u) (cprNormal v) := by
  obtain ⟨hlo, hhi⟩ := cprMIndex_bounds hpos hle u v
  rw [BitVec.toInt_ofInt]
  exact Int.bmod_eq_of_le (by omega) (by omega)

/-! ## The zone width and the first longitude -/

theorem value_zoneWidth (useEven : Bool) {nl : Nat} (hnl : nl ≤ 59) :
    value (zoneWidth useEven nl) = value (rn (360 / ((longitudeZones useEven nl : Int) : ℚ))) := by
  obtain ⟨hlo, hhi⟩ := longitudeZones_bounds useEven hnl
  obtain ⟨hf, hv⟩ := value_f64 (n := (longitudeZones useEven nl : Nat)) (by rw [Nat.abs_cast]; omega)
  obtain ⟨h360, hv360⟩ := value_f64 (n := 360) (by norm_num)
  have hne : ((longitudeZones useEven nl : Int) : ℚ) ≠ 0 := by
    exact_mod_cast (by omega : longitudeZones useEven nl ≠ 0)
  obtain ⟨z, hz⟩ := divF_eq_roundQ h360.finite hf.finite (hv ▸ hne)
  rw [hv, hv360] at hz
  exact (congrArg value hz).trans (value_roundQ z _)

theorem value_firstLongitude (useEven : Bool) {nl : Nat} (hnl : nl ≤ 59) (u v : BitVec 17) :
    value (firstLongitude useEven nl (cprNormal u) (cprNormal v)) =
      value (rn (value (zoneWidth useEven nl) *
        ((cprMIndex nl (cprNormal u) (cprNormal v) % (longitudeZones useEven nl : Int) : Int) +
          ((if useEven then u else v).toNat : ℚ) / 131072))) := by
  obtain ⟨hlo, hhi⟩ := longitudeZones_bounds useEven hnl
  have hm0 := Int.emod_nonneg (cprMIndex nl (cprNormal u) (cprNormal v))
    (b := (longitudeZones useEven nl : Int)) (by omega)
  have hm1 := Int.emod_lt_of_pos (cprMIndex nl (cprNormal u) (cprNormal v))
    (b := (longitudeZones useEven nl : Int)) (by omega)
  obtain ⟨hfin, hsum⟩ := value_zoneSum hm0 (by omega) (if useEven then u else v)
  obtain ⟨hwidth, -⟩ := zoneWidth_bounds useEven hnl
  obtain ⟨z, hz⟩ := mulF_eq_roundQ hwidth.isBinary64.finite hfin.finite
  rw [hsum, ← fmodz_eq_emod, apply_ite cprNormal] at hz
  rw [← fmodz_eq_emod]
  exact (congrArg value hz).trans (value_roundQ z _)

/-! ## The move towards the reference -/

theorem value_rn_half : IsBinary64 (rn (1 / 2)) ∧ value (rn (1 / 2)) = 1 / 2 :=
  value_roundQ_of_scaled false (j := 1) (k := 1) (by norm_num) (by norm_num) (by norm_num)

section move
variable {r lon0 dlon : F64} (hr : IsBinary64 r) (h0 : BoundedBy lon0 23000) (hd : IsBinary64 dlon)
  (hd5 : 5 ≤ value dlon)
include hr h0 hd hd5

/-- The zone distance to the reference before its floor, which is finite for every finite reference. -/
theorem value_zoneDistance :
    IsBinary64 (addF (divF (subF r lon0) dlon) (rn (1 / 2))) ∧
      value (addF (divF (subF r lon0) dlon) (rn (1 / 2))) =
        value (rn (value (rn (value (rn (value r - value lon0)) / value dlon)) + 1 / 2)) := by
  obtain ⟨z₁, h₁⟩ := subF_eq_roundQ hr.finite h0.isBinary64.finite
  have hdist : IsBinary64 (subF r lon0) := by
    rw [h₁, sub_eq_add_neg]
    exact roundQ_isBinary64 z₁ (hr.add_lt_overflow (by rw [abs_neg]; exact h0.le.trans (by norm_num)))
  obtain ⟨z₂, h₂⟩ := divF_eq_roundQ hdist.finite hd.finite (by linarith)
  have hquot : IsBinary64 (divF (subF r lon0) dlon) := by
    have hle : |value (subF r lon0) / value dlon| ≤ |value (subF r lon0)| := by
      rw [abs_div]
      exact div_le_self (abs_nonneg _) ((by linarith : 1 ≤ value dlon).trans (le_abs_self _))
    rw [h₂]
    exact roundQ_isBinary64 z₂ (hle.trans_lt hdist.lt_overflow)
  obtain ⟨hhalf, hvhalf⟩ := value_rn_half
  obtain ⟨z₃, h₃⟩ := addF_eq_roundQ hquot.finite hhalf.finite
  rw [hvhalf] at h₃
  rw [h₃]
  refine ⟨roundQ_isBinary64 z₃ (hquot.add_lt_overflow (by norm_num [abs_of_pos])), ?_⟩
  rw [value_roundQ, h₂, value_roundQ, h₁, value_roundQ]

/-- The zone number is exact, so the move is one rounding of its product with the zone width. -/
theorem longitudeShift_eq_roundQ :
    ∃ z, longitudeShift r lon0 dlon = roundQ z (nearestZone r lon0 dlon * value dlon) := by
  obtain ⟨hfin, -⟩ := value_zoneDistance hr h0 hd hd5
  obtain ⟨hindex, hvindex⟩ := value_f64_floor hfin
  change IsBinary64 (f64 (nearestZone r lon0 dlon)) at hindex
  change value (f64 (nearestZone r lon0 dlon)) = nearestZone r lon0 dlon at hvindex
  obtain ⟨z, hz⟩ := mulF_eq_roundQ hindex.finite hd.finite
  exact ⟨z, hvindex ▸ hz⟩

end move

theorem isFinite_addF_of_not_finite {x y : F64} (hy : isFinite y = false) : isFinite (addF x y) = false := by
  cases y with
  | fin => cases hy
  | nan => cases x <;> rfl
  | inf t =>
    cases x with
    | nan | fin => rfl
    | inf s =>
      rw [addF]
      split <;> rfl

/-- A sum with a rounding as its second operand: finite when both roundings are, and then rounded once more. -/
theorem addF_roundQ {x : F64} (hx : isFinite x = true) (z : Bool) (q : ℚ) :
    (isFinite (addF x (roundQ z q)) = true ↔
      isFinite (rn q) = true ∧ isFinite (rn (value x + value (rn q))) = true) ∧
    (isFinite (addF x (roundQ z q)) = true →
      value (addF x (roundQ z q)) = value (rn (value x + value (rn q)))) := by
  rw [← isFinite_roundQ z q, ← value_roundQ z q]
  by_cases hq : isFinite (roundQ z q) = true
  · obtain ⟨z', hz'⟩ := addF_eq_roundQ hx hq
    rw [hz', isFinite_roundQ]
    exact ⟨(and_iff_right hq).symm, fun _ => value_roundQ z' _⟩
  · rw [isFinite_addF_of_not_finite (Bool.not_eq_true _ ▸ hq)]
    exact ⟨iff_of_false Bool.false_ne_true fun h => hq h.1, nofun⟩

/-! ## The steps of a pair -/

section pair
variable (E O : Slot)

/-- `m` of a pair (R163, step 6). -/
def pairM : Int := cprMIndex (pairZones E O) (cprNormal E.lon) (cprNormal O.lon)

/-- The number of longitude zones of a pair (R163, step 7). -/
def pairLonZones : Nat := longitudeZones (pairEven E O) (pairZones E O)

/-- The zone width of a pair (R163, step 7). -/
def pairWidth : F64 := zoneWidth (pairEven E O) (pairZones E O)

/-- The first longitude of a pair (R163, step 7). -/
def pairFirst : F64 := firstLongitude (pairEven E O) (pairZones E O) (cprNormal E.lon) (cprNormal O.lon)

/-- The zone number of a pair (R163, step 8). -/
def pairZoneNumber (r : F64) : Int := nearestZone r (pairFirst E O) (pairWidth E O)

/-- The moved longitude of a pair (R163, step 8). -/
def pairMoved (r : F64) : F64 :=
  movedLongitude (pairEven E O) (pairZones E O) (cprNormal E.lon) (cprNormal O.lon) r

theorem pairZones_le : pairZones E O ≤ 59 := nlZones_le _

theorem pairWidth_bounds : BoundedBy (pairWidth E O) 362 ∧ 5 ≤ value (pairWidth E O) :=
  zoneWidth_bounds _ (pairZones_le E O)

theorem pairFirst_boundedBy : BoundedBy (pairFirst E O) 23000 :=
  firstLongitude_boundedBy _ (pairZones_le E O) _ _

theorem value_pairWidth : value (pairWidth E O) = value (rn (360 / ((pairLonZones E O : Int) : ℚ))) :=
  value_zoneWidth _ (pairZones_le E O)

theorem value_pairFirst :
    value (pairFirst E O) = value (rn (value (pairWidth E O) *
      ((pairM E O % (pairLonZones E O : Int) : Int) +
        ((if pairEven E O then E.lon else O.lon).toNat : ℚ) / 131072))) :=
  value_firstLongitude _ (pairZones_le E O) _ _

variable {r : F64} (hr : IsBinary64 r)
include hr

theorem pairZoneNumber_eq :
    pairZoneNumber E O r = ⌊value (rn (value (rn (value (rn (value r - value (pairFirst E O))) /
      value (pairWidth E O))) + 1 / 2))⌋ := by
  obtain ⟨hwidth, hwidth5⟩ := pairWidth_bounds E O
  exact congrArg Int.floor (value_zoneDistance hr (pairFirst_boundedBy E O) hwidth.isBinary64 hwidth5).2

/-- The moved longitude: finite when the move and the sum are, and then the rounded sum (R170). -/
theorem pairMoved_spec :
    (isFinite (pairMoved E O r) = true ↔
      isFinite (rn (pairZoneNumber E O r * value (pairWidth E O))) = true ∧
        isFinite (rn (value (pairFirst E O) +
          value (rn (pairZoneNumber E O r * value (pairWidth E O))))) = true) ∧
    (isFinite (pairMoved E O r) = true → value (pairMoved E O r) =
      value (rn (value (pairFirst E O) + value (rn (pairZoneNumber E O r * value (pairWidth E O)))))) := by
  obtain ⟨hwidth, hwidth5⟩ := pairWidth_bounds E O
  have hfirst := pairFirst_boundedBy E O
  obtain ⟨z, hz⟩ := longitudeShift_eq_roundQ hr hfirst hwidth.isBinary64 hwidth5
  have hmoved : pairMoved E O r = addF (pairFirst E O) (roundQ z (pairZoneNumber E O r * value (pairWidth E O))) :=
    congrArg (addF (pairFirst E O)) hz
  rw [hmoved]
  exact addF_roundQ hfirst.isBinary64.finite z _

end pair

/-! ## The outcomes -/

/-- With zones and a finite reference `m` is given, valid or not, and the moved longitude decides (R169, R170). -/
theorem PairOutcome.longitude {E O : Slot} {refLon : DWord} {c : CprResult} (h : PairOutcome E O refLon c)
    (hz : pairZones E O ≠ 0) (hr : isFinite (ofBits refLon) = true) :
    c.m = BitVec.ofInt 32 (pairM E O) ∧
      (c.valid = true ↔ isFinite (pairMoved E O (ofBits refLon)) = true) := by
  cases h with
  | noZones hz' => exact absurd hz' hz
  | badReference _ hr' => exact absurd (hr'.symm.trans hr) Bool.false_ne_true
  | valid _ _ hlon => exact ⟨rfl, iff_of_true rfl hlon⟩
  | overflow _ _ hlon => exact ⟨rfl, iff_of_false Bool.false_ne_true (Bool.not_eq_true _ ▸ hlon)⟩

/-- The longitude of a valid result (R170). -/
theorem PairOutcome.value_lon {E O : Slot} {refLon : DWord} {c : CprResult} (h : PairOutcome E O refLon c)
    (hvalid : c.valid = true) :
    value (ofBits c.lon) = wrappedInto180 (remainder360 (value (pairMoved E O (ofBits refLon)))) := by
  cases h with
  | valid _ _ hlon =>
    obtain ⟨hfin, hval⟩ := value_wrap180_fmodF (addF_isBinary64_of_finite hlon)
    exact (congrArg value hfin.ofBits_toBits).trans hval
  | _ => cases hvalid

/-- A positive zone count, as a register shows it, comes from a pair inside the window. -/
theorem resolvePair_outcome_of_nl_ne_zero {E O : Slot} {refLon : DWord} (h : (resolvePair E O refLon).nl ≠ 0) :
    PairOutcome E O refLon (resolvePair E O refLon) := by
  by_cases hwin : tsDistance E.ts O.ts ≤ Config.pairWindow
  · exact resolvePair_outcome hwin refLon
  · rw [resolvePair_eq, if_pos (not_le.1 hwin)] at h
    exact absurd rfl h

/-- Settles O59: each step is one rounding of the exact value of the steps before it. -/
theorem cprLongitudeResolved : Obligations.CprLongitudeResolved := by
  intro s p E O hs hslots heven hodd
  have hroles : Roles p.snap.slot0 p.snap.slot1 E O := ⟨heven, hodd, hslots⟩
  obtain ⟨t, hexec, hcpr⟩ := exec_cprResolve hs
  obtain ⟨-, hposition, -⟩ := cprResolve_sound p.snap.slot0 p.snap.slot1 p.snap.refLon
  rw [← hcpr] at hposition
  refine ⟨t, hexec, fun hvalid => (hposition hvalid).2.1, fun hne href => ?_⟩
  rw [hroles.cprResolve] at hcpr
  have hout := resolvePair_outcome_of_nl_ne_zero (hcpr ▸ hne)
  rw [← hcpr] at hout
  obtain ⟨-, hnl, -, -⟩ := hout.fields
  have hz : pairZones E O ≠ 0 := by rwa [hnl, Ne, ofInt_pairZones_eq_zero_iff] at hne
  obtain ⟨hm, hvalid⟩ := hout.longitude hz href
  obtain ⟨hfinite, hvalue⟩ := pairMoved_spec E O (isBinary64_ofBits href)
  obtain ⟨hmlo, hmhi⟩ := cprMIndex_bounds (Nat.pos_of_ne_zero hz) (pairZones_le E O) E.lon O.lon
  have hregNl : (readReg t .cprNl).toNat = pairZones E O := by rw [readReg, hnl, toNat_ofInt_pairZones]
  rw [hregNl]
  intro nl m even base ni dlon lon0 k kdlon lon1 w
  have hmi : pairM E O = m := cprMIndex_eq _ _ _
  have hni : pairLonZones E O = ni := by
    simp only [ni, nl, even, pairLonZones, longitudeZones, pairEven, decide_eq_true_eq]
    split <;> omega
  have hbase : ((if pairEven E O then E.lon else O.lon).toNat : ℚ) / 131072 = base := by
    simp only [base, even, pairEven, decide_eq_true_eq, apply_ite BitVec.toNat]
  have hdlon : value (pairWidth E O) = dlon := by
    rw [value_pairWidth, hni]
  have hlon0 : value (pairFirst E O) = lon0 := by rw [value_pairFirst, hdlon, hmi, hni, hbase]
  have hk : pairZoneNumber E O (ofBits p.snap.refLon) = k := by
    rw [pairZoneNumber_eq E O (isBinary64_ofBits href), hlon0, hdlon]
  rw [hk, hlon0, hdlon] at hfinite hvalue
  refine ⟨?_, hmi ▸ hmlo, hmi ▸ hmhi, hvalid.trans hfinite, fun hv => ?_⟩
  · rw [readReg, hm, ← hmi]
    exact toInt_ofInt_cprMIndex (Nat.pos_of_ne_zero hz) (pairZones_le E O) _ _
  · rw [readReg, readReg, hiHalf_append_loHalf, hout.value_lon hv, hvalue (hvalid.1 hv)]
    rfl

/-! ## The range of a valid position -/

theorem abs_value_fin_le_87 (neg : Bool) {m : Nat} {e : ℤ}
    (h : m < 2 ^ 53 ∧ e ≤ -47 ∨ m ≤ 87 * 2 ^ 46 ∧ e = -46) :
    |value (.fin neg m e)| ≤ 87 := by
  have habs : |value (.fin neg m e)| = m * 2 ^ e := by
    refine Rat.cast_injective (α := ℝ) ?_
    rw [Rat.cast_abs, abs_value_fin]
    push_cast
    rfl
  rw [habs]
  rcases h with ⟨hm, he⟩ | ⟨hm, rfl⟩
  · have hm' : (m : ℚ) ≤ 2 ^ 53 := by exact_mod_cast hm.le
    have hpow : (2 : ℚ) ^ e ≤ 2 ^ (-47 : ℤ) := zpow_le_zpow_right₀ one_le_two he
    exact (mul_le_mul hm' hpow (by positivity) (by positivity)).trans (by norm_num)
  · have hm' : (m : ℚ) ≤ 87 * 2 ^ 46 := by exact_mod_cast hm
    exact (mul_le_mul_of_nonneg_right hm' (by positivity)).trans_eq (by norm_num)

/-- A latitude with zones has at most the magnitude of the last bound, 87.0 (R162). -/
theorem abs_value_ofBits_le_87 {lat : DWord} (h : nlZones lat ≠ 0) : |value (ofBits lat)| ≤ 87 := by
  have hmag : lat.toNat % 2 ^ 63 ≤ 0x4055C00000000000 := by
    obtain ⟨-, hzero, -⟩ := isZoneCount_nlZones lat
    exact not_lt.1 (mt hzero h)
  have hexp : (lat.extractLsb' 52 11).toNat = lat.toNat / 2 ^ 52 % 2 ^ 11 := by
    rw [BitVec.extractLsb'_toNat, Nat.shiftRight_eq_div_pow]
  have hfrac : (lat.extractLsb' 0 52).toNat = lat.toNat % 2 ^ 52 := by
    rw [BitVec.extractLsb'_toNat, Nat.shiftRight_zero]
  have hfinite : lat.extractLsb' 52 11 ≠ 2047#11 := fun hinf => by
    rw [hinf, BitVec.toNat_ofNat] at hexp
    omega
  rcases ofBits_cases lat with ⟨hinf, -, -⟩ | ⟨hnan, -⟩ | ⟨-, h⟩ | ⟨-, -, h⟩
  · exact absurd hinf hfinite
  · exact absurd hnan hfinite
  · rw [h]
    exact abs_value_fin_le_87 _ (.inl ⟨by omega, by norm_num⟩)
  · rw [h]
    exact abs_value_fin_le_87 _ (by omega)

/-- Settles O60: a valid result has zones at its latitude, and its longitude is wrapped. -/
theorem cprPositionInRange : Obligations.CprPositionInRange := by
  intro s t hexec hvalid
  obtain ⟨p, hs, -⟩ := exec_cases hexec
  obtain ⟨t', hexec', hcpr⟩ := exec_cprResolve hs
  cases hexec'.symm.trans hexec
  obtain ⟨-, hposition, -⟩ := cprResolve_sound p.snap.slot0 p.snap.slot1 p.snap.refLon
  rw [← hcpr] at hposition
  obtain ⟨hnl, -, hzones, -⟩ := hposition hvalid
  obtain ⟨hlatLo, hlatHi⟩ := abs_le.1 (abs_value_ofBits_le_87 (hzones ▸ hnl.ne'))
  have hf : p.snap.slot0.f ≠ p.snap.slot1.f := fun hf => by
    rw [hcpr, cprResolve_parity hf] at hvalid
    cases hvalid
  obtain ⟨E, O, hroles⟩ := exists_roles hf
  rw [hroles.cprResolve] at hcpr
  have hout := resolvePair_outcome_of_nl_ne_zero (E := E) (O := O) (refLon := p.snap.refLon) fun hzero => by
    rw [hcpr, hzero] at hnl
    cases hnl
  rw [← hcpr] at hout
  rw [hout.value_lon hvalid]
  exact ⟨hlatLo, hlatHi, wrappedInto180_bounds (abs_remainder360_le _)⟩

end Sys2Proof.Proofs
end

section
/-! Fault entry, the FAULTED state and its only exit (R205 to R209), reset (R230), and the guards of the model
(logs 7, 8, 11, 12). -/

namespace Sys2Proof.Proofs

open Sys2Proof.Machine Sys2Proof.Claims

/-! ## With nothing pending -/

/-- With nothing pending the block's own step changes nothing (R215, log 8). -/
theorem blockStep_of_not_busy {s : State} (hs : s.cst = .idle ∨ s.cst = .faulted) : blockStep s = .next s := by
  rcases hs with hs | hs <;> simp only [blockStep, hs]

/-- With nothing pending there is no completion (R215, log 11). -/
theorem exec_of_not_busy {s : State} (hs : s.cst = .idle ∨ s.cst = .faulted) (i : Instr) :
    exec i s = .refused .noPendingCommand := by
  rw [exec_eq_completing]
  rcases hs with hs | hs <;> simp only [completing, hs]

theorem sampleNow_of_faulted {s : State} (hs : s.cst = .faulted) : sampleNow s = s := by
  simp only [sampleNow, hs]

/-! ## FAULTED -/

/-- The second state is FAULTED with the first one's fault, and shows the same status and results (R206). -/
structure StaysFaulted (s t : State) : Prop where
  cst : t.cst = .faulted
  faultCode : t.faultCode = s.faultCode
  faultCmd : t.faultCmd = s.faultCmd
  outputs : ∀ r : Reg, writableMask r = none → readReg t r = readReg s r

theorem StaysFaulted.refl {s : State} (hs : s.cst = .faulted) : StaysFaulted s s := ⟨hs, rfl, rfl, fun _ _ => rfl⟩

/-- No register shows the platform's inputs, the schedule or the host's answer. -/
theorem StaysFaulted.withOutside {s t : State} (h : StaysFaulted s t) (now : DWord) (reset : Bool)
    (es : List Event) (resp : Response) :
    StaysFaulted s { t with now := now, resetAsserted := reset, events := es, response := resp } :=
  ⟨h.cst, h.faultCode, h.faultCmd, h.outputs⟩

/-- In FAULTED a CMD write is dropped, and an input register is no status or result register (R206). -/
theorem StaysFaulted.writeOffset {s t : State} (h : StaysFaulted s t) (off : Nat) (v : Word) :
    StaysFaulted s (writeOffset t off v) := by
  rcases writeOffset_cases t off v with hw | ⟨r, -, hw⟩ | hw <;> rw [hw]
  · exact h
  · have hout := writeInput_sameOutputs t v r
    exact ⟨(writeInput_cst t v r).trans h.cst, hout.faultCode.trans h.faultCode, hout.faultCmd.trans h.faultCmd,
      fun g hg => (hout.readReg hg).trans (h.outputs g hg)⟩
  · rw [hostCommand_faulted h.cst]
    exact h

/-- Every step from FAULTED is the platform's reset or stays there (R206, R207). -/
theorem step_of_faulted {s t : State} (hs : s.cst = .faulted) (hstep : step s = .next t) :
    (∃ rest, s.events = .assertReset :: rest) ∨ StaysFaulted s t := by
  have hkeep := StaysFaulted.refl hs
  rcases step_cases hstep with ⟨-, hb⟩ | ⟨rest, hmove⟩
  · cases (blockStep_of_not_busy (.inr hs)).symm.trans hb
    exact .inr hkeep
  have hrest : StaysFaulted s { s with events := rest } := hkeep.withOutside _ _ rest _
  rcases hmove with ⟨addr, size, -, hr⟩ | ⟨addr, size, v, -, hw⟩ | ⟨-, hb⟩ | ⟨-, rfl⟩ | ⟨ms, -, rfl⟩ |
    ⟨hreset, -⟩ | ⟨-, rfl⟩
  · obtain ⟨-, off, -, rfl⟩ := hostRead_cases hr
    exact .inr (hrest.withOutside _ _ _ _)
  · obtain ⟨-, off, -, rfl⟩ := hostWrite_cases hw
    exact .inr ((hrest.writeOffset off v).withOutside _ _ _ _)
  · cases (blockStep_of_not_busy (.inr hrest.cst)).symm.trans hb
    exact .inr hrest
  · rw [sampleNow_of_faulted hrest.cst]
    exact .inr hrest
  · exact .inr (hrest.withOutside ms _ _ _)
  · exact .inl ⟨rest, hreset⟩
  · exact .inr (hrest.withOutside _ false _ _)

/-- Settles O7: of the moves of R215 only the assertion of reset leaves FAULTED. -/
theorem faultedUntilReset : Obligations.FaultedUntilReset := by
  intro s t hs hstep
  refine (step_of_faulted hs hstep).imp_right fun h => ?_
  exact ⟨h.cst, h.faultCode, h.faultCmd, h.outputs⟩

/-! ## Fault entry -/

/-- STATUS after a fault entry: FAULT alone beside LASTOP (R25, R205). -/
theorem readReg_status_raiseFault (code : FaultCode) (w : Word) (s : State) :
    readReg (raiseFault code w s) .status = 0#16 ++ s.lastop ++ 0x04#8 := by
  apply BitVec.eq_of_toNat_eq
  simp only [readReg, statusWord_toNat, toNat_append_eq_add, BitVec.toNat_ofNat]
  simp [busyFlag, faultFlag]
  omega

/-- A fault entry writes STATUS, FAULT_CODE and FAULT_CMD only (R205). -/
theorem raiseFault_sameRegsExcept (code : FaultCode) (w : Word) (s : State) :
    SameRegsExcept [.status, .faultCode, .faultCmd] s (raiseFault code w s) := by
  intro r hr
  cases r with
  | status | faultCode | faultCmd => exact absurd (by decide) hr
  | _ => rfl

/-- Settles O5: the three registers a fault entry writes, and its frame. -/
theorem faultEntry : Obligations.FaultEntry := by
  intro code w s
  exact ⟨faultCodeWord_toNat code, rfl, readReg_status_raiseFault code w s, rfl,
    raiseFault_sameRegsExcept code w s, rfl, rfl, rfl, rfl, rfl⟩

/-! ## The guards -/

/-- An EXTRACT whose field is too wide or passes the frame's end takes EXTRACT_RANGE (R82, log 12). -/
theorem operandFault_extract {start len : BitVec 7} (h : 64 < len.toNat ∨ 112 < start.toNat + len.toNat)
    (p : Pending) : operandFault (.extract start len) p = some .extractRange := by
  have hwf : ¬(Instr.extract start len).wellFormed = true := by
    rw [wellFormed_extract_iff]
    omega
  rw [operandFault, if_neg hwf]

/-- A POS_TO_SLOT whose latched message is no airborne position takes SLOT_SOURCE (R64, log 12). -/
theorem operandFault_posToSlot {p : Pending} (h : p.snap.msg.kind ≠ .airbornePosition) (slot : BitVec 1) :
    operandFault (.posToSlot slot) p = some .slotSource := by
  have hwf : (Instr.posToSlot slot).wellFormed = true := rfl
  rw [operandFault, if_pos hwf, sourceFault, if_neg h]

/-- A host access while reset is asserted is refused, whatever its address and size (R230, log 7). -/
theorem hostAccess_of_resetAsserted {s : State} (h : s.resetAsserted = true) (addr size : Nat) (v : Word) :
    hostRead addr size s = .refused .accessDuringReset ∧ hostWrite addr size v s = .refused .accessDuringReset :=
  ⟨by rw [hostRead, if_pos h], by rw [hostWrite, if_pos h]⟩

/-- Settles O16: the guard outside BUSY, the two operand faults, and the access during reset. -/
theorem modelGuards : Obligations.ModelGuards := by
  refine ⟨fun i s hs => ⟨exec_of_not_busy hs i, fun rest hmove => ?_⟩, fun s p hs => ⟨?_, ?_⟩, ?_⟩
  · rw [step_cons hmove]
    exact blockStep_of_not_busy hs
  · exact fun start len hrange => exec_fault hs (operandFault_extract hrange p)
  · exact fun slot hkind => exec_fault hs (operandFault_posToSlot hkind slot)
  · intro s addr size v rest hreset hmove
    obtain ⟨hread, hwrite⟩ := hostAccess_of_resetAsserted (s := { s with events := rest }) hreset addr size v
    rcases hmove with hmove | hmove <;> rw [step_cons hmove]
    · exact hread
    · exact hwrite

/-! ## Reset -/

/-- The reset of a block in any state shows the registers of the state after reset (R230). -/
theorem readReg_resetBlock (s : State) (r : Reg) : readReg (resetBlock s) r = readReg State.reset r := rfl

/-- CRC_INFO resets to FLIP = 127, no flip, beside PASS = 0 and SYNDROME = 0 (R24, R31). -/
theorem readReg_reset_crcInfo : readReg State.reset .crcInfo = 0x7F000000#32 := by decide

/-- Every other register resets to 0 (R24, R230). -/
theorem readReg_reset {r : Reg} (hr : r ≠ .crcInfo) : readReg State.reset r = 0 := by
  cases r with
  | crcInfo => exact absurd rfl hr
  | _ => decide

/-- Settles O9: the two reset values of the map. -/
theorem resetStateReads : Obligations.ResetStateReads :=
  ⟨rfl, readReg_reset_crcInfo, fun _ hr => readReg_reset hr⟩

/-- Settles O8: the assertion of reset is a step to the registers of the state after reset. -/
theorem resetValuesFromAnyState : Obligations.ResetValuesFromAnyState := by
  intro s rest hmove
  exact ⟨_, step_cons hmove, rfl, (readReg_resetBlock _ _).trans readReg_reset_crcInfo,
    fun _ hr => (readReg_resetBlock _ _).trans (readReg_reset hr), rfl, rfl, rfl⟩

/-- Settles O21: the reset values are legal, and reset is released. -/
theorem resetIsLegal : Obligations.ResetIsLegal := by
  unfold Obligations.ResetIsLegal
  exact (legalState_iff _).2 ⟨blockLegal_resetBlock State.reset, resetHeld_of_released rfl⟩

end Sys2Proof.Proofs
end
